-- ==== Sys2Proof/Word.lean ====
section
/-! DEFINITION. The word types of the block: the command and response words of
30_encoding.md R82 and R84, the 4-bit code of a Nibble (40_nibble.md R100) and the `real`
of 00_scope.md R8, which is one IEEE 754 binary64 value held by its bit pattern. -/

namespace Sys2Proof

/-- A field of 8 bits: an opcode, an index, a note number, a status code. -/
abbrev Byte := BitVec 8

/-- The stored form of a Nibble, the 4-bit two's-complement code of its level (R100). -/
abbrev Nibble := BitVec 4

/-- The command word `CW` (R82). -/
abbrev CommandWord := BitVec 144

/-- The response word `RW` (R84). -/
abbrev ResponseWord := BitVec 136

/-- The `data` field of a command and the `rdata` field of a response. -/
abbrev Data := BitVec 128

/-- The type `real` (R8): a binary64 value by its pattern. It is a structure and not an
abbreviation, so that the arithmetic of bit vectors never applies to it by accident. -/
structure F64 where
  bits : BitVec 64
deriving DecidableEq, Repr, Inhabited

end Sys2Proof
end

