-- ==== Sys2Proof/Config.lean ====
section
/-! DEFINITION. What a run of the block is launched with and no command changes
(00_scope.md R6, R7, R11, R15): the sizes of the tables, the shape of the constants record `K`,
and the open parameters. An open parameter is an `opaque` constant: nothing can be proved of it,
so a claim holds for whatever it is. The values of `K` stand in Machine/Constants.lean. -/

namespace Sys2Proof

/-- Wavetable entries (R6). -/
abbrev WT_LEN : Nat := 32

/-- Noise table entries (R6). -/
abbrev NOISE_LEN : Nat := 8192

/-- The named constants of R6 that the rules use in arithmetic (the two table lengths stand above,
because they shape the state). Every rule names the field, never the literal (decision D33). -/
structure Constants where
  /-- Lowest Nibble level. -/
  NIB_MIN : Int
  /-- Highest Nibble level. -/
  NIB_MAX : Int
  /-- Divisor of the negative levels in `toFloat`. -/
  NEG_DIV : F64
  /-- Divisor of the positive levels in `toFloat`. -/
  POS_DIV : F64
  /-- The four duty ratios. -/
  DUTY : Vector F64 4
  /-- Reference pitch in Hz. -/
  A4_HZ : F64
  /-- Note number of the reference pitch. -/
  A4_NOTE : Int
  /-- Notes per octave. -/
  SEMIS : F64
  /-- Cents per octave. -/
  CENTS_OCT : F64
  /-- Conceptual sweep timer rate in Hz. -/
  SWEEP_HZ : F64
  /-- Exponent bias of the sweep. -/
  SWEEP_BIAS : F64
  /-- Lowest unclipped shadow frequency in Hz. -/
  F_MIN : F64
  /-- Highest unclipped shadow frequency in Hz. -/
  F_MAX : F64
  /-- Stutter velocity below which the envelope is forced Off. -/
  STUTTER_FLOOR : F64
  /-- Loudness quantizer steps per unit. -/
  LOUD_STEPS : F64
  /-- Unit conversion of the noise interval. -/
  MS_PER_S : F64
deriving DecidableEq, Repr

namespace Config

/-- The open function behind `CFG.exp2` (R11). Machine/Cfg.lean holds it to the spec's named
properties. -/
opaque rawExp2 : F64 → F64

/-- The open function behind `CFG.sin` (R11). -/
opaque rawSin : F64 → F64

/-- The open function behind `CFG.cos` (R11). -/
opaque rawCos : F64 → F64

/-- The open function behind `CFG.tri_delta` (44_sweep.md R150), of the shadow frequency, the
amount, the period and the sample rate. -/
opaque rawTriDelta : F64 → F64 → F64 → F64 → F64

/-- `SQ_BEND` (41_square.md R114): whether the square applies the pitch ratio. -/
opaque sqBend : Bool

/-- `NOISE_TABLE` (42_noise.md R120): nothing is assumed of its content. -/
opaque noiseTable : Fin NOISE_LEN → Nibble

/-- Free value: the table a `RESET_WT_RANDOM` draws (43_wavetable.md R137), by the number of the
draw. -/
opaque drawTable : Nat → Vector Nibble WT_LEN

/-- Free value: the pattern `bits64` gives a NaN result (00_scope.md R9,
93_implementation_defined.md U9), by the number of the draw. Machine/Ops.lean makes it a NaN
pattern. -/
opaque nanPattern : Nat → BitVec 64

end Config
end Sys2Proof
end

