-- ==== Sys2Proof/Syntax.lean ====
section
/-! DEFINITION. The commands of the block: one constructor per row of spec/opcode_table.json
(30_encoding.md R81, R85). `SET_PARAM` and `GET_PARAM` have one constructor per parameter id. -/

namespace Sys2Proof

/-- A command with its operands assembled (R83): notes and indices are `u8`, reals are binary64
values, Nibbles are 4-bit codes. -/
inductive Instr where
  | noteOn (note : Byte) (velocity : F64)
  | noteOff (note : Byte)
  | pitchBend (ratio : F64)
  | sweepReset (freq : F64)
  | setWtSample (idx : Byte) (value : Nibble)
  | resetWtSine
  | resetWtRandom
  | setParamMasterVolume (value : F64)
  | setParamPitchBend (value : F64)
  | setParamDetune (value : F64)
  | setParamOscType (value : F64)
  | setParamSweepType (value : F64)
  | setParamSweepAmount (value : F64)
  | setParamSweepPeriod (value : F64)
  | setParamStutterTime (value : F64)
  | setParamStutterDepth (value : F64)
  | setParamStutterWhen (value : F64)
  | setParamEgAttack (value : F64)
  | setParamEgDecay (value : F64)
  | setParamEgSustain (value : F64)
  | setParamEgRelease (value : F64)
  | setParamSquareDuty (value : F64)
  | setParamNoiseInterval (value : F64)
  | setParamDacFreq (value : F64)
  | setParamDacQ (value : F64)
  | getParamMasterVolume
  | getParamPitchBend
  | getParamDetune
  | getParamOscType
  | getParamSweepType
  | getParamSweepAmount
  | getParamSweepPeriod
  | getParamStutterTime
  | getParamStutterDepth
  | getParamStutterWhen
  | getParamEgAttack
  | getParamEgDecay
  | getParamEgSustain
  | getParamEgRelease
  | getParamSquareDuty
  | getParamNoiseInterval
  | getParamDacFreq
  | getParamDacQ
  | process (sr : F64)
  | getWavetable
  | setWavetable (table : Vector Nibble WT_LEN)
  | queryAssignable (note : Byte)
  | getStatus
deriving DecidableEq, Repr

end Sys2Proof
end

