-- ==== Sys2Proof/Machine/Float.lean ====
section
/-! DEFINITION. The arithmetic of `real`: IEEE 754 binary64 with round-to-nearest-even
(00_scope.md R8, R9, R10; decision D1). Every operation forms the exact result in `Nat` or `Int`
and rounds once. A NaN is one value: every NaN result is the canonical pattern `nan`, and
`ofBits` reads any NaN pattern as it (notes/assumptions 9, 20). -/

namespace Sys2Proof
namespace F64

/-- The sign bit, bit 63. -/
def sign (x : F64) : Bool := 2 ^ 63 ≤ x.bits.toNat

/-- The pattern without its sign bit; on numbers it grows with the magnitude. -/
def mag (x : F64) : Nat := x.bits.toNat % 2 ^ 63

/-- The exponent field, bits 62:52. -/
def expField (x : F64) : Nat := x.mag / 2 ^ 52

/-- The fraction field, bits 51:0. -/
def fracField (x : F64) : Nat := x.bits.toNat % 2 ^ 52

def isNaN (x : F64) : Bool := 2047 * 2 ^ 52 < x.mag

def isInf (x : F64) : Bool := x.mag == 2047 * 2 ^ 52

def isFinite (x : F64) : Bool := x.mag < 2047 * 2 ^ 52

/-- Both zeros. -/
def isZero (x : F64) : Bool := x.mag == 0

/-- A normal number: finite and of magnitude at least 2^-1022 (R10). -/
def isNormal (x : F64) : Bool := 2 ^ 52 ≤ x.mag && x.mag < 2047 * 2 ^ 52

def zero : F64 := ⟨0⟩
def negZero : F64 := ⟨0x8000000000000000⟩
def one : F64 := ⟨0x3FF0000000000000⟩

/-- The infinity of the given sign. -/
def inf (neg : Bool) : F64 := if neg then ⟨0xFFF0000000000000⟩ else ⟨0x7FF0000000000000⟩

/-- The one pattern a register holds for NaN. -/
def nan : F64 := ⟨0x7FF8000000000000⟩

/-- `PI` (R11). -/
def pi : F64 := ⟨0x400921FB54442D18⟩

/-- A value with its NaN, if it is one, in the canonical pattern. -/
def canon (x : F64) : F64 := if x.isNaN then nan else x

/-- Not a NaN in any pattern but the canonical one. -/
def isCanonical (x : F64) : Bool := !x.isNaN || x == nan

/-- `f64(b)` (R9): a 64-bit field read as a value. -/
def ofBits (b : BitVec 64) : F64 := canon ⟨b⟩

/-- The significand of a finite number: its value is `± mant * 2 ^ expo`. -/
def mant (x : F64) : Nat := if x.expField = 0 then x.fracField else x.fracField + 2 ^ 52

/-- The exponent of the significand's unit. -/
def expo (x : F64) : Int := (max x.expField 1 : Nat) - 1075

/-- The signed significand. -/
def smant (x : F64) : Int := if x.sign then -(x.mant : Int) else x.mant

/-- The key by which numbers are ordered: both zeros have key 0. -/
def key (x : F64) : Int := if x.sign then -(x.mag : Int) else x.mag

/-- `==` of IEEE 754: false when either side is NaN, and `-0.0` equals `0.0`. -/
def eq (x y : F64) : Bool := !x.isNaN && !y.isNaN && x.key == y.key

/-- `!=`: false when either side is NaN, as R8 and decision D1 say of any comparison with NaN
(notes/assumptions 15). -/
def ne (x y : F64) : Bool := !x.isNaN && !y.isNaN && x.key != y.key

def lt (x y : F64) : Bool := !x.isNaN && !y.isNaN && decide (x.key < y.key)

def le (x y : F64) : Bool := !x.isNaN && !y.isNaN && decide (x.key ≤ y.key)

def gt (x y : F64) : Bool := y.lt x

def ge (x y : F64) : Bool := y.le x

/-- The zero of the given sign. -/
def signedZero (neg : Bool) : F64 := if neg then negZero else zero

/-- The pattern of a rounded magnitude; one of 2^1024 or more is the infinity. -/
def pack (neg : Bool) (b : Nat) : F64 :=
  if 2047 * 2 ^ 52 ≤ b then inf neg else ⟨BitVec.ofNat 64 (if neg then 2 ^ 63 + b else b)⟩

/-- `m / 2 ^ k` rounded to the nearest integer, ties to even. -/
def nearestEven (m k : Nat) : Nat :=
  let t := m / 2 ^ k
  let rest := m % 2 ^ k
  if 2 ^ k < 2 * rest || (2 ^ k == 2 * rest && t % 2 == 1) then t + 1 else t

/-- The exponent of the last place of the binary64 number nearest to `m * 2 ^ e`. -/
def lastPlace (m : Nat) (e : Int) : Int := max ((Nat.log2 m : Int) + e - 52) (-1074)

/-- Round `m * 2 ^ e`, taken with the sign `neg`, to the nearest binary64, ties to even. -/
def round (neg : Bool) (m : Nat) (e : Int) : F64 :=
  if m = 0 then signedZero neg
  else
    let q := lastPlace m e
    pack neg ((q + 1074).toNat * 2 ^ 52 +
      (if q ≤ e then m * 2 ^ (e - q).toNat else nearestEven m (q - e).toNat))

/-- `real(n)` (R9): an integer as a `real`, exact for |n| < 2^53. DESIGN CHOICE: from 2^53 on, where R9
is silent and the unbounded sample counts of 45_envelope.md R162 and R173 can reach, it rounds as
the arithmetic does, to nearest even, and to the infinity from 2^1024 on (notes/assumptions 25). -/
def real (n : Int) : F64 := round (decide (n < 0)) n.natAbs 0

/-- `-x`. -/
def neg (x : F64) : F64 :=
  if x.isNaN then nan
  else if x.sign then ⟨BitVec.ofNat 64 x.mag⟩ else ⟨BitVec.ofNat 64 (2 ^ 63 + x.mag)⟩

/-- The exact sum of two finite numbers is this times `2 ^ min x.expo y.expo`. -/
def exactSum (x y : F64) : Int :=
  x.smant * 2 ^ (x.expo - min x.expo y.expo).toNat + y.smant * 2 ^ (y.expo - min x.expo y.expo).toNat

/-- `x + y`. An exact sum of zero is `+0.0`, but for two negative zeros. -/
def add (x y : F64) : F64 :=
  if x.isNaN || y.isNaN then nan
  else if x.isInf then (if y.isInf && x.sign != y.sign then nan else x)
  else if y.isInf then y
  else if exactSum x y = 0 then signedZero (x.sign && y.sign)
  else round (decide (exactSum x y < 0)) (exactSum x y).natAbs (min x.expo y.expo)

/-- `x - y`. -/
def sub (x y : F64) : F64 := x.add y.neg

/-- `x * y`. -/
def mul (x y : F64) : F64 :=
  if x.isNaN || y.isNaN then nan
  else if x.isInf || y.isInf then
    (if x.isZero || y.isZero then nan else inf (x.sign != y.sign))
  else round (x.sign != y.sign) (x.mant * y.mant) (x.expo + y.expo)

/-- `x / y`. The quotient is formed to at least 57 bits with a sticky last bit, so that one rounding
gives the rounding of the exact quotient. -/
def div (x y : F64) : F64 :=
  if x.isNaN || y.isNaN then nan
  else if x.isInf then (if y.isInf then nan else inf (x.sign != y.sign))
  else if y.isInf then signedZero (x.sign != y.sign)
  else if y.isZero then (if x.isZero then nan else inf (x.sign != y.sign))
  else
    let n := x.mant * 2 ^ 110
    let m := 2 * (n / y.mant) + (if n % y.mant = 0 then 0 else 1)
    round (x.sign != y.sign) m (x.expo - y.expo - 111)

/-- `floor(x)` (R9) of a finite `x`. No rule applies it to anything else, and it is 0 there
(notes/assumptions 17). -/
def floor (x : F64) : Int :=
  if x.isFinite then
    (if 0 ≤ x.expo then x.smant * 2 ^ x.expo.toNat else x.smant / 2 ^ (-x.expo).toNat)
  else 0

/-- `rnd(x)` (R9) of a finite `x`: the nearest integer, ties away from zero, the addition of one half
exact. No rule applies it to anything else, and it is 0 there (notes/assumptions 17). -/
def rnd (x : F64) : Int :=
  if x.isFinite then
    let a : Nat :=
      if 0 ≤ x.expo then x.mant * 2 ^ x.expo.toNat
      else (2 * x.mant + 2 ^ (-x.expo).toNat) / 2 ^ ((-x.expo).toNat + 1)
    if x.sign then -(a : Int) else a
  else 0

/-- `clamp(lo, hi, v)` (R9) on reals. -/
def clamp (lo hi v : F64) : F64 := if v.lt lo then lo else if v.gt hi then hi else v

/-- `nz(x)` (R10, decision D3): a normal number is kept, everything else is `+0.0`. -/
def nz (x : F64) : F64 := if x.isNormal then x else zero

/-- 2 to the power `k`, for `k` in [-1022, 1023]. -/
def pow2 (k : Int) : F64 := ⟨BitVec.ofNat 64 ((k + 1023).toNat * 2 ^ 52)⟩

end F64
end Sys2Proof
end

