-- ==== Sys2Proof/WellFormed.lean ====
section
/-! DEFINITION. Well-formed commands. A `real` operand is a value, and NaN is one value
(00_scope.md R9: the payload of a NaN is unspecified), so a real operand is well formed when it is
not a NaN in a pattern other than the canonical one. Every other operand is well formed by its
type: any note, any index, any Nibble code (30_encoding.md R86, 40_nibble.md R100). -/

namespace Sys2Proof

/-- Every real operand is a value. -/
def Instr.wf : Instr → Bool
  | .noteOn _ velocity => velocity.isCanonical
  | .noteOff _ => true
  | .pitchBend ratio => ratio.isCanonical
  | .sweepReset freq => freq.isCanonical
  | .setWtSample _ _ => true
  | .resetWtSine => true
  | .resetWtRandom => true
  | .setParamMasterVolume value => value.isCanonical
  | .setParamPitchBend value => value.isCanonical
  | .setParamDetune value => value.isCanonical
  | .setParamOscType value => value.isCanonical
  | .setParamSweepType value => value.isCanonical
  | .setParamSweepAmount value => value.isCanonical
  | .setParamSweepPeriod value => value.isCanonical
  | .setParamStutterTime value => value.isCanonical
  | .setParamStutterDepth value => value.isCanonical
  | .setParamStutterWhen value => value.isCanonical
  | .setParamEgAttack value => value.isCanonical
  | .setParamEgDecay value => value.isCanonical
  | .setParamEgSustain value => value.isCanonical
  | .setParamEgRelease value => value.isCanonical
  | .setParamSquareDuty value => value.isCanonical
  | .setParamNoiseInterval value => value.isCanonical
  | .setParamDacFreq value => value.isCanonical
  | .setParamDacQ value => value.isCanonical
  | .getParamMasterVolume => true
  | .getParamPitchBend => true
  | .getParamDetune => true
  | .getParamOscType => true
  | .getParamSweepType => true
  | .getParamSweepAmount => true
  | .getParamSweepPeriod => true
  | .getParamStutterTime => true
  | .getParamStutterDepth => true
  | .getParamStutterWhen => true
  | .getParamEgAttack => true
  | .getParamEgDecay => true
  | .getParamEgSustain => true
  | .getParamEgRelease => true
  | .getParamSquareDuty => true
  | .getParamNoiseInterval => true
  | .getParamDacFreq => true
  | .getParamDacQ => true
  | .process sr => sr.isCanonical
  | .getWavetable => true
  | .setWavetable _ => true
  | .queryAssignable _ => true
  | .getStatus => true

end Sys2Proof
end

