-- ==== Sys2Proof/Decode.lean ====
section
/-! DEFINITION. Decoding of command words, total on every 144-bit word (30_encoding.md R86), and the
encoder written from the same tables (R82, R83, R85). A format ignores the fields it does not use
(R82); the encoder writes zero there. -/

namespace Sys2Proof

/-- Why a word is illegal (R86, R87). Both are answered with `ILLEGAL_COMMAND`. -/
inductive DecodeError where
  /-- The opcode is `0x00` or one of `0x0F` to `0xFF`. -/
  | reservedOpcode (op : Byte)
  /-- The opcode is `SET_PARAM` or `GET_PARAM` and the id is 18 or more. -/
  | reservedParamId (op id : Byte)
deriving DecidableEq, Repr

/-- `CW[143:136]` (R82). -/
def opField (w : CommandWord) : Byte := w.extractLsb' 136 8

/-- `CW[135:128]` (R82). -/
def idxField (w : CommandWord) : Byte := w.extractLsb' 128 8

/-- `CW[127:0]` (R82). -/
def dataField (w : CommandWord) : Data := w.extractLsb' 0 128

/-- `f64(data[63:0])` (R83). -/
def realOperand (w : CommandWord) : F64 := F64.ofBits ((dataField w).extractLsb' 0 64)

/-- `data[3:0]`, whose level is `s4(data[3:0])` (R83). -/
def nibbleOperand (w : CommandWord) : Nibble := (dataField w).extractLsb' 0 4

/-- Entry `i` of a table packed in 128 bits is `[4i+3 : 4i]` (20_memory.md R60). -/
def unpackTable (d : Data) : Vector Nibble WT_LEN :=
  Vector.ofFn fun i => d.extractLsb' (4 * i.val) 4

/-- Entry 0 in the least significant nibble (20_memory.md R60). -/
def packNibbles : List Nibble → Nat
  | [] => 0
  | n :: rest => n.toNat + 16 * packNibbles rest

/-- A table packed in 128 bits (20_memory.md R60). -/
def packTable (t : Vector Nibble WT_LEN) : Data := BitVec.ofNat 128 (packNibbles t.toList)

/-- The `SET_PARAM` row of a parameter id (R85, 10_state.md R40). -/
def setParamOf (id : Byte) (value : F64) : Option Instr :=
  match id.toNat with
  | 0 => some (.setParamMasterVolume value)
  | 1 => some (.setParamPitchBend value)
  | 2 => some (.setParamDetune value)
  | 3 => some (.setParamOscType value)
  | 4 => some (.setParamSweepType value)
  | 5 => some (.setParamSweepAmount value)
  | 6 => some (.setParamSweepPeriod value)
  | 7 => some (.setParamStutterTime value)
  | 8 => some (.setParamStutterDepth value)
  | 9 => some (.setParamStutterWhen value)
  | 10 => some (.setParamEgAttack value)
  | 11 => some (.setParamEgDecay value)
  | 12 => some (.setParamEgSustain value)
  | 13 => some (.setParamEgRelease value)
  | 14 => some (.setParamSquareDuty value)
  | 15 => some (.setParamNoiseInterval value)
  | 16 => some (.setParamDacFreq value)
  | 17 => some (.setParamDacQ value)
  | _ => none

/-- The `GET_PARAM` row of a parameter id (R85, 10_state.md R40). -/
def getParamOf (id : Byte) : Option Instr :=
  match id.toNat with
  | 0 => some .getParamMasterVolume
  | 1 => some .getParamPitchBend
  | 2 => some .getParamDetune
  | 3 => some .getParamOscType
  | 4 => some .getParamSweepType
  | 5 => some .getParamSweepAmount
  | 6 => some .getParamSweepPeriod
  | 7 => some .getParamStutterTime
  | 8 => some .getParamStutterDepth
  | 9 => some .getParamStutterWhen
  | 10 => some .getParamEgAttack
  | 11 => some .getParamEgDecay
  | 12 => some .getParamEgSustain
  | 13 => some .getParamEgRelease
  | 14 => some .getParamSquareDuty
  | 15 => some .getParamNoiseInterval
  | 16 => some .getParamDacFreq
  | 17 => some .getParamDacQ
  | _ => none

/-- The command of a word, or why there is none (R86). -/
def decode (w : CommandWord) : Except DecodeError Instr :=
  match (opField w).toNat with
  | 0x01 => .ok (.noteOn (idxField w) (realOperand w))
  | 0x02 => .ok (.noteOff (idxField w))
  | 0x03 => .ok (.pitchBend (realOperand w))
  | 0x04 => .ok (.sweepReset (realOperand w))
  | 0x05 => .ok (.setWtSample (idxField w) (nibbleOperand w))
  | 0x06 => .ok .resetWtSine
  | 0x07 => .ok .resetWtRandom
  | 0x08 =>
    match setParamOf (idxField w) (realOperand w) with
    | some i => .ok i
    | none => .error (.reservedParamId (opField w) (idxField w))
  | 0x09 =>
    match getParamOf (idxField w) with
    | some i => .ok i
    | none => .error (.reservedParamId (opField w) (idxField w))
  | 0x0A => .ok (.process (realOperand w))
  | 0x0B => .ok .getWavetable
  | 0x0C => .ok (.setWavetable (unpackTable (dataField w)))
  | 0x0D => .ok (.queryAssignable (idxField w))
  | 0x0E => .ok .getStatus
  | _ => .error (.reservedOpcode (opField w))

/-- The command word of the three fields (R82). -/
def commandWord (op idx : Byte) (data : Data) : CommandWord := op ++ idx ++ data

/-- `bits64(x)` in `data[63:0]`, the rest zero (R83). -/
def realData (x : F64) : Data := (0#64) ++ x.bits

/-- A Nibble code in `data[3:0]`, the rest zero (R83). -/
def nibbleData (n : Nibble) : Data := (0#124) ++ n

/-- The command word of a command; unused fields are zero (R82, R85). -/
def encode : Instr → CommandWord
  | .noteOn note velocity => commandWord 0x01 note (realData velocity)
  | .noteOff note => commandWord 0x02 note 0
  | .pitchBend ratio => commandWord 0x03 0 (realData ratio)
  | .sweepReset freq => commandWord 0x04 0 (realData freq)
  | .setWtSample idx value => commandWord 0x05 idx (nibbleData value)
  | .resetWtSine => commandWord 0x06 0 0
  | .resetWtRandom => commandWord 0x07 0 0
  | .setParamMasterVolume value => commandWord 0x08 0 (realData value)
  | .setParamPitchBend value => commandWord 0x08 1 (realData value)
  | .setParamDetune value => commandWord 0x08 2 (realData value)
  | .setParamOscType value => commandWord 0x08 3 (realData value)
  | .setParamSweepType value => commandWord 0x08 4 (realData value)
  | .setParamSweepAmount value => commandWord 0x08 5 (realData value)
  | .setParamSweepPeriod value => commandWord 0x08 6 (realData value)
  | .setParamStutterTime value => commandWord 0x08 7 (realData value)
  | .setParamStutterDepth value => commandWord 0x08 8 (realData value)
  | .setParamStutterWhen value => commandWord 0x08 9 (realData value)
  | .setParamEgAttack value => commandWord 0x08 10 (realData value)
  | .setParamEgDecay value => commandWord 0x08 11 (realData value)
  | .setParamEgSustain value => commandWord 0x08 12 (realData value)
  | .setParamEgRelease value => commandWord 0x08 13 (realData value)
  | .setParamSquareDuty value => commandWord 0x08 14 (realData value)
  | .setParamNoiseInterval value => commandWord 0x08 15 (realData value)
  | .setParamDacFreq value => commandWord 0x08 16 (realData value)
  | .setParamDacQ value => commandWord 0x08 17 (realData value)
  | .getParamMasterVolume => commandWord 0x09 0 0
  | .getParamPitchBend => commandWord 0x09 1 0
  | .getParamDetune => commandWord 0x09 2 0
  | .getParamOscType => commandWord 0x09 3 0
  | .getParamSweepType => commandWord 0x09 4 0
  | .getParamSweepAmount => commandWord 0x09 5 0
  | .getParamSweepPeriod => commandWord 0x09 6 0
  | .getParamStutterTime => commandWord 0x09 7 0
  | .getParamStutterDepth => commandWord 0x09 8 0
  | .getParamStutterWhen => commandWord 0x09 9 0
  | .getParamEgAttack => commandWord 0x09 10 0
  | .getParamEgDecay => commandWord 0x09 11 0
  | .getParamEgSustain => commandWord 0x09 12 0
  | .getParamEgRelease => commandWord 0x09 13 0
  | .getParamSquareDuty => commandWord 0x09 14 0
  | .getParamNoiseInterval => commandWord 0x09 15 0
  | .getParamDacFreq => commandWord 0x09 16 0
  | .getParamDacQ => commandWord 0x09 17 0
  | .process sr => commandWord 0x0A 0 (realData sr)
  | .getWavetable => commandWord 0x0B 0 0
  | .setWavetable table => commandWord 0x0C 0 (packTable table)
  | .queryAssignable note => commandWord 0x0D note 0
  | .getStatus => commandWord 0x0E 0 0

/-- The command word of a row of spec/opcode_table.json: the table numbers the word's bits as R82 does,
and a row has 144 of them; bits above `nbits` are zero. -/
def tableWord (nbits w : Nat) : CommandWord := BitVec.ofNat 144 (w % 2 ^ nbits)

/-- What the decoder reads from a table row's word. -/
def decodeTableWord (nbits w : Nat) : Option Instr :=
  match decode (tableWord nbits w) with
  | .ok i => some i
  | .error _ => none

end Sys2Proof
end

