-- ==== Sys2Proof/Machine/Constants.lean ====
section
/-! DEFINITION. The values of the constants record `K`: the literals of 00_scope.md R6
(notes/assumptions 14). -/

namespace Sys2Proof.Machine

/-- `K` at the SB values (R6). 8.1 and 0.05 are the nearest `real` to the decimal (R9). -/
def K : Constants where
  NIB_MIN := -8
  NIB_MAX := 7
  NEG_DIV := F64.real 8
  POS_DIV := F64.real 7
  DUTY := #v[⟨0x3FC0000000000000⟩, ⟨0x3FD0000000000000⟩, ⟨0x3FE0000000000000⟩, ⟨0x3FE8000000000000⟩]
  A4_HZ := F64.real 440
  A4_NOTE := 69
  SEMIS := F64.real 12
  CENTS_OCT := F64.real 1200
  SWEEP_HZ := F64.real 128
  SWEEP_BIAS := ⟨0x4020333333333333⟩
  F_MIN := F64.real 10
  F_MAX := F64.real 10000
  STUTTER_FLOOR := ⟨0x3FA999999999999A⟩
  LOUD_STEPS := F64.real 16
  MS_PER_S := F64.real 1000

end Sys2Proof.Machine
end

