-- ==== Sys2Proof/Machine/State.lean ====
section
/-! DEFINITION. The state of the block as plain data (10_state.md R20 to R40), its port, and the
state after reset (70_reset_and_hazards.md R270, R271). Registers bear the spec's own names:
`s.sq.phase` is the spec's `sq.phase`. -/

namespace Sys2Proof.Machine

/-- `par.OscType` (R40 id 3): 0 Square, 1 Noise, 2 Wavetable. -/
inductive OscType where
  | square | noise | wavetable
deriving DecidableEq, Repr

/-- `par.SweepType` (R40 id 4): 0 None, 1 Up, 2 Down, 3 Triangle. -/
inductive SweepType where
  | none | up | down | triangle
deriving DecidableEq, Repr

/-- `par.StutterWhen` (R40 id 9): 0 NoteOn, 1 NoteOff. -/
inductive StutterWhen where
  | noteOn | noteOff
deriving DecidableEq, Repr

/-- `par.SquareDuty` (R40 id 14): 0 is 12.5 %, 1 is 25 %, 2 is 50 %, 3 is 75 %. -/
inductive SquareDuty where
  | d12_5 | d25 | d50 | d75
deriving DecidableEq, Repr

/-- `env.state` (R26): Off 0, Attack 1, Decay 2, Sustain 3, Release 4. -/
inductive EnvState where
  | off | attack | decay | sustain | release
deriving DecidableEq, Repr

/-- The Square Oscillator's registers (R22). -/
structure Square where
  phase : F64
  frequency : F64
deriving DecidableEq, Repr

/-- The Noise Oscillator's registers (R23). -/
structure Noise where
  sec_counter : F64
  index : Fin NOISE_LEN
deriving DecidableEq, Repr

/-- The Wavetable Oscillator's registers (R24, R33). -/
structure Wavetable where
  phase : F64
  frequency : F64
  pitch_ratio : F64
  table : Vector Nibble WT_LEN
deriving DecidableEq, Repr

/-- The Frequency Sweep's registers (R25). -/
structure Sweep where
  shadow_freq : F64
  timer : F64
  clipped : Bool
deriving DecidableEq, Repr

/-- The Envelope's and the Stutter's registers (R26, R27, R31). -/
structure Envelope where
  state : EnvState
  elapsed : Nat
  last_state_value : F64
  value : F64
  velocity : F64
  note : Byte
  note_on : Bool
  note_valid : Bool
  stuttering : Bool
  st_count : Nat
  stutter_velocity : F64
deriving DecidableEq, Repr

/-- The DAC's registers (R28, R31). -/
structure Dac where
  b0n : F64
  b1n : F64
  b2n : F64
  a1n : F64
  a2n : F64
  x1 : F64
  x2 : F64
  y1 : F64
  y2 : F64
  dirty : Bool
deriving DecidableEq, Repr

/-- The Voice Unit's register (R29). -/
structure Voice where
  freq : F64
deriving DecidableEq, Repr

/-- The eighteen parameter registers, ids 0 to 17 in order (R40). -/
structure Params where
  MasterVolume : F64
  PitchBend : F64
  Detune : F64
  OscType : OscType
  SweepType : SweepType
  SweepAmount : F64
  SweepPeriod : F64
  StutterTime : F64
  StutterDepth : F64
  StutterWhen : StutterWhen
  EgAttack : F64
  EgDecay : F64
  EgSustain : F64
  EgRelease : F64
  SquareDuty : SquareDuty
  NoiseInterval : F64
  DacFreq : F64
  DacQ : F64
deriving DecidableEq, Repr

/-- The command port (30_encoding.md R80, R82, R84): the command words presented and not yet
executed, first to be executed first, and the response word of the last command answered
(absent while none has been). It is the block's interface, not part of the state R20 lists
(notes/assumptions 1, 2). -/
structure Port where
  commands : List CommandWord
  response : Option ResponseWord
deriving DecidableEq, Repr

/-- The block (R20), its port, and the model's own counter of free values drawn
(notes/assumptions 8). -/
structure State where
  sq : Square
  no : Noise
  wt : Wavetable
  sw : Sweep
  env : Envelope
  dac : Dac
  vo : Voice
  par : Params
  port : Port
  draws : Nat
deriving DecidableEq, Repr

/-- Why the model stops where the spec says the machine cannot be. -/
inductive Fault where
  /-- Raised by `PROCESS` when the wavetable is selected and `floor(wt.phase)` is no index of the table.
  20_memory.md R62 says that this cannot occur, and no state in which the phases are in range
  (Safety.lean) reaches it. Safe: the model stops. -/
  | wavetableIndexOutOfRange
deriving DecidableEq, Repr

/-- Why the model gives no next state. -/
inductive Refusal where
  /-- Raised by the dispatcher for an instruction without a meaning. Safe: the model stops. -/
  | notModelled (mnemonic : String)
  /-- Raised by `PROCESS` when its sample rate is NaN, infinite, zero or negative: the spec says that it
  "is refused: the model returns no next state for it" (47_voice.md R235). Safe: the model stops. -/
  | sampleRateNotFinitePositive
deriving DecidableEq, Repr

/-- The state at launch for given values of the open parameters `WT_RESET` and `P_RESET`
(70_reset_and_hazards.md R271; 00_scope.md R7). -/
def State.launch (wtReset : Vector Nibble WT_LEN) (pReset : Params) : State where
  sq := { phase := F64.zero, frequency := F64.zero }
  no := { sec_counter := F64.zero, index := 0 }
  wt := { phase := F64.zero, frequency := F64.zero, pitch_ratio := F64.one, table := wtReset }
  sw := { shadow_freq := F64.zero, timer := F64.zero, clipped := false }
  env :=
    { state := .off, elapsed := 0, last_state_value := F64.zero, value := F64.zero
      velocity := F64.zero, note := 0, note_on := false, note_valid := false
      stuttering := false, st_count := 0, stutter_velocity := F64.one }
  dac :=
    { b0n := F64.zero, b1n := F64.zero, b2n := F64.zero, a1n := F64.zero, a2n := F64.zero
      x1 := F64.zero, x2 := F64.zero, y1 := F64.zero, y2 := F64.zero, dirty := true }
  vo := { freq := F64.zero }
  par := pReset
  port := { commands := [], response := none }
  draws := 0

/-- DESIGN CHOICE: the parameter registers of `State.reset`, where the spec leaves `P_RESET` open
(R41): every real 0.0, every enumeration code 0 (notes/assumptions 4). -/
def Params.reset : Params where
  MasterVolume := F64.zero
  PitchBend := F64.zero
  Detune := F64.zero
  OscType := .square
  SweepType := .none
  SweepAmount := F64.zero
  SweepPeriod := F64.zero
  StutterTime := F64.zero
  StutterDepth := F64.zero
  StutterWhen := .noteOn
  EgAttack := F64.zero
  EgDecay := F64.zero
  EgSustain := F64.zero
  EgRelease := F64.zero
  SquareDuty := .d12_5
  NoiseInterval := F64.zero
  DacFreq := F64.zero
  DacQ := F64.zero

/-- The machine right after reset (R271), the wavetable and the parameters at the values of
notes/assumptions 4 and 5. -/
def State.reset : State := State.launch (Vector.replicate WT_LEN 0) Params.reset

end Sys2Proof.Machine
end

