-- ==== Sys2Proof/Machine/Operands.lean ====
section
/-! DEFINITION. Operand forms of the commands beyond the fields of the word (which Decode.lean
assembles): the enumeration codes a `SET_PARAM` carries as a `real` and a `GET_PARAM` returns as one
(47_voice.md R211, R231; 30_encoding.md R88), and the sample rate a `PROCESS` accepts (R235). -/

namespace Sys2Proof.Machine

/-- Whether `v` is exactly the code `n`; `-0.0` counts as 0 (R211). -/
def isCode (v : F64) (n : Nat) : Bool := v.eq (F64.real n)

/-- The oscillator of a code (10_state.md R40 id 3; 47_voice.md R216). -/
def oscTypeOf (v : F64) : Option OscType :=
  if isCode v 0 then some .square
  else if isCode v 1 then some .noise
  else if isCode v 2 then some .wavetable
  else none

def OscType.code : OscType → Nat
  | .square => 0
  | .noise => 1
  | .wavetable => 2

/-- The sweep mode of a code (10_state.md R40 id 4; 47_voice.md R217). -/
def sweepTypeOf (v : F64) : Option SweepType :=
  if isCode v 0 then some .none
  else if isCode v 1 then some .up
  else if isCode v 2 then some .down
  else if isCode v 3 then some .triangle
  else none

def SweepType.code : SweepType → Nat
  | .none => 0
  | .up => 1
  | .down => 2
  | .triangle => 3

/-- The trigger timing of a code (10_state.md R40 id 9; 47_voice.md R222). -/
def stutterWhenOf (v : F64) : Option StutterWhen :=
  if isCode v 0 then some .noteOn
  else if isCode v 1 then some .noteOff
  else none

def StutterWhen.code : StutterWhen → Nat
  | .noteOn => 0
  | .noteOff => 1

/-- The duty of a code (10_state.md R40 id 14; 47_voice.md R227). -/
def squareDutyOf (v : F64) : Option SquareDuty :=
  if isCode v 0 then some .d12_5
  else if isCode v 1 then some .d25
  else if isCode v 2 then some .d50
  else if isCode v 3 then some .d75
  else none

def SquareDuty.code : SquareDuty → Fin 4
  | .d12_5 => 0
  | .d25 => 1
  | .d50 => 2
  | .d75 => 3

/-- The code of an envelope state (10_state.md R26). -/
def EnvState.code : EnvState → BitVec 3
  | .off => 0
  | .attack => 1
  | .decay => 2
  | .sustain => 3
  | .release => 4

/-- The sample rates a `PROCESS` accepts: finite and above zero (R210, R235). -/
def acceptedRate (sr : F64) : Bool := sr.isFinite && sr.gt F64.zero

end Sys2Proof.Machine
end

