-- ==== Sys2Proof/Machine/Flags.lean ====
section
/-! DEFINITION. The five one-bit flags (10_state.md R31): what sets and clears each, and the status
view that reads them (10_state.md R42, 47_voice.md R233). -/

namespace Sys2Proof.Machine

/-- `clip_check()` (44_sweep.md R152): the latch is set when the shadow frequency has left
[`F_MIN`, `F_MAX`], and otherwise kept. -/
def clipCheck (sw : Sweep) : Sweep :=
  if sw.shadow_freq.lt K.F_MIN || sw.shadow_freq.gt K.F_MAX then { sw with clipped := true } else sw

/-- `env.arm()` (45_envelope.md R172): writes `env.stuttering` and starts the stutter afresh. -/
def arm (depth : F64) (env : Envelope) : Envelope :=
  { env with stuttering := depth.ne F64.zero, st_count := 0, stutter_velocity := F64.one }

/-- The event that does not arm disarms (45_envelope.md R164, R165). -/
def disarm (env : Envelope) : Envelope := { env with stuttering := false }

/-- Setting `dac.dirty` (46_dac.md R191; 47_voice.md R229, R230). -/
def markDirty (dac : Dac) : Dac := { dac with dirty := true }

/-- One flag as a bit. -/
def flagBit (b : Bool) : BitVec 1 := BitVec.ofBool b

/-- The layout of `GET_STATUS` (47_voice.md R233), most significant field first. -/
def statusView (env : Envelope) (clipped dirty : Bool) : Data :=
  (0#111) ++ flagBit env.note_valid ++ env.note ++ (0#1) ++ flagBit dirty ++ flagBit clipped
    ++ flagBit env.stuttering ++ flagBit env.note_on ++ env.state.code

end Sys2Proof.Machine
end

