-- ==== Sys2Proof/Machine/Ops.lean ====
section
/-! DEFINITION. The operations the meanings share: writing one unit's registers, reading and writing
a table entry (00_scope.md R9), answering a command (30_encoding.md R84), and raising an error
(60_exceptions.md R252), which is the whole of what stands here for taking an exception: there is
no trap entry and no return from one (R256, R257). -/

namespace Sys2Proof.Machine

/-- What a meaning answers. -/
abbrev Answer := Host.Outcome State Fault Refusal

def State.setSq (s : State) (v : Square) : State := { s with sq := v }
def State.setNo (s : State) (v : Noise) : State := { s with no := v }
def State.setWt (s : State) (v : Wavetable) : State := { s with wt := v }
def State.setSw (s : State) (v : Sweep) : State := { s with sw := v }
def State.setEnv (s : State) (v : Envelope) : State := { s with env := v }
def State.setDac (s : State) (v : Dac) : State := { s with dac := v }
def State.setVo (s : State) (v : Voice) : State := { s with vo := v }
def State.setPar (s : State) (v : Params) : State := { s with par := v }

/-- The commands still to be executed. -/
def State.setCommands (s : State) (ws : List CommandWord) : State :=
  { s with port := { s.port with commands := ws } }

/-- The response word on the port. -/
def State.setResponse (s : State) (w : ResponseWord) : State :=
  { s with port := { s.port with response := some w } }

/-- One more free value has been drawn (the model's own counter, notes/assumptions 8). -/
def State.drawn (s : State) : State := { s with draws := s.draws + 1 }

/-- `TabRead(t, i)` (00_scope.md R9); there is no entry at an index outside the table. -/
def tabRead (t : Vector Nibble WT_LEN) (i : Int) : Option Nibble :=
  if 0 ≤ i then t[i.toNat]? else none

/-- `TabWrite(t, i, v)` (00_scope.md R9); an index outside the table writes nothing, which is the
contract of `SET_WT_SAMPLE` (20_memory.md R62). -/
def tabWrite (t : Vector Nibble WT_LEN) (i : Nat) (v : Nibble) : Vector Nibble WT_LEN :=
  if h : i < WT_LEN then t.set i v h else t

/-- The status of a response (30_encoding.md R84). -/
inductive Status where
  | ok | notRepresentable | illegalCommand
deriving DecidableEq, Repr

/-- The status codes (R84). -/
def Status.code : Status → Byte
  | .ok => 0x00
  | .notRepresentable => 0x01
  | .illegalCommand => 0x02

/-- `RW` from its two fields (R84). -/
def responseWord (st : Status) (rdata : Data) : ResponseWord := st.code ++ rdata

/-- Answer with status `OK` and a result. -/
def respond (rdata : Data) (s : State) : State := s.setResponse (responseWord .ok rdata)

/-- Answer with status `OK` and no result: `rdata` = 0 (R84). -/
def done (s : State) : State := respond 0 s

/-- Some NaN pattern, free by the number of the draw (93_implementation_defined.md U9). -/
def nanBits (n : Nat) : BitVec 64 :=
  if (F64.mk (Config.nanPattern n)).isNaN then Config.nanPattern n else F64.nan.bits

/-- `bits64(x)` (00_scope.md R9): the pattern of a number; of a NaN, any NaN pattern. -/
def bits64 (draw : Nat) (x : F64) : BitVec 64 := if x.isNaN then nanBits draw else x.bits

/-- Answer with a real result: `bits64(v)` in `rdata[63:0]`, the rest 0 (R84). A NaN draws its
pattern. -/
def respondReal (v : F64) (s : State) : State :=
  { respond ((0#64) ++ bits64 s.draws v) s with
    draws := if v.isNaN then s.draws + 1 else s.draws }

/-- `raise` (60_exceptions.md R252): the command ends with the status, `rdata` = 0 and no change to any
register, flag, table or parameter. -/
def raise (st : Status) (s : State) : State := s.setResponse (responseWord st 0)

end Sys2Proof.Machine
end

