-- ==== Sys2Proof/Machine/Envelope.lean ====
section
/-! DEFINITION. The Envelope Generator with its Stutter (45_envelope.md R160 to R178). Every operation
is flushed by `nz`, as the rules write it out (00_scope.md R10). -/

namespace Sys2Proof.Machine

/-- Attack, Decay or Sustain, the states whose exit writes the anchor (R163). -/
def EnvState.isSounding : EnvState → Bool
  | .attack | .decay | .sustain => true
  | .release | .off => false

/-- `env.leave()` (R163). -/
def envLeave (env : Envelope) : Envelope :=
  if env.state.isSounding then { env with last_state_value := env.value } else env

/-- Arm at the event `par.StutterWhen` names, disarm at the other (R164, R165). -/
def armAt (event : StutterWhen) (par : Params) (env : Envelope) : Envelope :=
  if par.StutterWhen = event then arm par.StutterDepth env else disarm env

/-- `env.note_on(note, velocity)` (R164). -/
def envNoteOn (note : Byte) (velocity : F64) (par : Params) (env : Envelope) : Envelope :=
  armAt .noteOn par
    { envLeave env with
      state := .attack, elapsed := 0, value := F64.zero, velocity := velocity
      note := note, note_valid := true, note_on := true }

/-- The part of `env.note_off()` that depends on the state (R165). -/
def envRelease (env : Envelope) : Envelope :=
  if env.state.isSounding then { envLeave env with state := .release, elapsed := 0 } else env

/-- `env.note_off()` (R165). DESIGN CHOICE: 20_memory.md R65 says that `NOTE_OFF` is not idempotent; R165's
pseudocode is followed, by which a second one in a row changes nothing (notes/assumptions 34). -/
def envNoteOff (par : Params) (env : Envelope) : Envelope :=
  armAt .noteOff par (envRelease { env with note_on := false })

/-- Elapsed seconds of a count of samples (R162, R173). At extreme sample rates `nz` flushes the quotient
to 0, however large the count (notes/assumptions 29). -/
def secondsOf (n : Nat) (sr : F64) : F64 := ((F64.real n).div sr).nz

/-- The stutter velocity after one stutter tick (R173). DESIGN CHOICE: R173's corner case says that a
depth above 100 makes the velocity grow; its pseudocode is followed, in which a depth of +inf is flushed
to 0 and makes the step 1.0, and growth is subject to rounding and overflow (notes/assumptions 28). -/
def stutterStepped (v depth : F64) : F64 :=
  (v.sub (F64.one.sub (depth.div (F64.real 100)).nz).nz).nz

/-- One stutter tick: forced Off below the floor, else a retrigger (R173). DESIGN CHOICE: 47_voice.md
R221 says that a depth of 0 written while stuttering forces Off at the next stutter tick; by R173, which
is followed, a velocity of 1.05 or more survives the step 1.0 and retriggers (notes/assumptions 31). -/
def stutterTick (par : Params) (env : Envelope) : Envelope :=
  let v := stutterStepped env.stutter_velocity par.StutterDepth
  let e := { env with st_count := 0, stutter_velocity := v }
  if v.lt K.STUTTER_FLOOR then { e with state := .off, elapsed := 0, stuttering := false }
  else { envLeave e with state := .attack, elapsed := 0, value := F64.zero }

/-- `env.stutter_step(sr)` (R173). DESIGN CHOICE: R173's corner case says that a `StutterTime` <= 0 makes
every tick a stutter tick; its pseudocode is followed, in which a time of 0 makes none where `nz` flushes
the elapsed seconds to 0 (notes/assumptions 29). -/
def stutterStep (par : Params) (sr : F64) (env : Envelope) : Envelope :=
  if env.stuttering then
    let e := { env with st_count := env.st_count + 1 }
    if (secondsOf e.st_count sr).gt par.StutterTime then stutterTick par e else e
  else env

/-- `env.fsm_step(sr)` (R166): the seconds the curve of this tick uses, and the registers after at most
one timed transition. DESIGN CHOICE: R167, R168, R170 and 70_reset_and_hazards.md R289 say that a segment
of time 0 is left after one tick; R166's pseudocode is followed, by which its state stays where `nz`
flushes the elapsed seconds to 0 (notes/assumptions 29). -/
def fsmStep (par : Params) (sr : F64) (env : Envelope) : F64 × Envelope :=
  let s := secondsOf env.elapsed sr
  match env.state with
  | .attack =>
    if s.gt par.EgAttack then
      (F64.zero, { env with last_state_value := F64.one, state := .decay, elapsed := 0 })
    else (s, env)
  | .decay =>
    if s.gt par.EgDecay then (F64.zero, { envLeave env with state := .sustain, elapsed := 0 })
    else (s, env)
  | .release =>
    if s.gt par.EgRelease then (F64.zero, { env with state := .off, elapsed := 0 }) else (s, env)
  | .sustain => (s, env)
  | .off => (s, env)

/-- The curve of the state, `s` seconds into it (R167 to R171). DESIGN CHOICE: R168 says that a sustain
level above 1.0 makes the decay rise, and R170 that a release time of 0 outputs the anchor; their
pseudocode is followed, in which `nz` holds the decay at its anchor at a sustain level of +inf and flushes
an anchor that is not normal (notes/assumptions 30). R177's monotone ramps hold while the seconds are not
flushed (notes/assumptions 35). -/
def curve (par : Params) (s : F64) (env : Envelope) : F64 :=
  match env.state with
  | .attack => (s.div par.EgAttack).nz
  | .decay =>
    (env.last_state_value.sub
      ((env.last_state_value.sub par.EgSustain).nz.mul (s.div par.EgDecay).nz).nz).nz
  | .sustain => par.EgSustain
  | .release => (env.last_state_value.mul (F64.one.sub (s.div par.EgRelease).nz).nz).nz
  | .off => F64.zero

/-- `discrete_loudness(v)` (R175), its pseudocode; the comment "floor(16 v) / 16" beside it does not hold
where `nz` flushes `16 v` (notes/assumptions 30). -/
def discreteLoudness (v : F64) : F64 := ((F64.real (v.mul K.LOUD_STEPS).nz.floor).div K.LOUD_STEPS).nz

/-- The stutter multiplier (R174). -/
def stutterGain (env : Envelope) : F64 := if env.stuttering then env.stutter_velocity else F64.one

/-- The registers after `env.process(sr)` (R174): stutter, transition, curve, counter. -/
def envAdvance (par : Params) (sr : F64) (env : Envelope) : Envelope :=
  let r := fsmStep par sr (stutterStep par sr env)
  { r.2 with value := curve par r.1 r.2, elapsed := r.2.elapsed + 1 }

/-- The gain `env.process(sr)` returns (R174), from the registers it leaves. -/
def envGain (env : Envelope) : F64 :=
  (((discreteLoudness env.value).mul (stutterGain env)).nz.mul env.velocity).nz

/-- `env.process(sr)` (R174). -/
def envProcess (par : Params) (sr : F64) (env : Envelope) : F64 × Envelope :=
  (envGain (envAdvance par sr env), envAdvance par sr env)

/-- The answer of `QUERY_ASSIGNABLE` (R176). -/
def assignable (note : Byte) (par : Params) (env : Envelope) : Bool :=
  let same := env.note_valid && note == env.note
  match par.StutterWhen with
  | .noteOn => same || !env.note_on
  | .noteOff => same || (env.state == .release || env.state == .off) || env.stuttering

end Sys2Proof.Machine
end

