-- ==== Sys2Proof/Machine/Cfg.lean ====
section
/-! DEFINITION. The configuration functions `CFG.exp2`, `CFG.sin`, `CFG.cos` and `CFG.tri_delta`
(00_scope.md R11, 44_sweep.md R150). Each is an open function of Config.lean, held to the spec's
named properties: where the open function has the property its value is kept, where it has not a
value that has it stands instead. The functions that arise so are exactly the functions with the
properties, so a claim about them assumes the named properties and nothing else
(notes/assumptions 10, 11). -/

namespace Sys2Proof.Machine
namespace CFG

/-- `CFG.exp2`: exactly `2 ^ k` at an integer `k` in [-1022, 1023] (`P_EXP2_INT`), positive and
finite between (`P_EXP2_POS`), anything elsewhere. -/
def exp2 (x : F64) : F64 :=
  let r := (Config.rawExp2 x).canon
  if x.ge (F64.real (-1022)) && x.le (F64.real 1023) then
    (if x.eq (F64.real x.floor) then F64.pow2 x.floor
     else if r.isFinite && r.gt F64.zero then r else F64.one)
  else r

/-- In [-1, 1] (`P_TRIG_RANGE`). -/
def inUnit (r : F64) : Bool := r.ge (F64.real (-1)) && r.le F64.one

/-- `CFG.sin`: 0 at 0 (`P_TRIG_ZERO`), in [-1, 1] at finite arguments (`P_TRIG_RANGE`), anything
elsewhere. -/
def sin (x : F64) : F64 :=
  let r := (Config.rawSin x).canon
  if x.isFinite then
    (if x.isZero then (if r.isZero then r else F64.zero)
     else if inUnit r then r else F64.zero)
  else r

/-- `CFG.cos`: 1 at 0 (`P_TRIG_ZERO`), in [-1, 1] at finite arguments (`P_TRIG_RANGE`), anything
elsewhere. -/
def cos (x : F64) : F64 :=
  let r := (Config.rawCos x).canon
  if x.isFinite then
    (if x.isZero then F64.one else if inUnit r then r else F64.zero)
  else r

/-- `CFG.tri_delta` (R150): a total function whose result is finite and flushed by `nz`. -/
def triDelta (shadow amount period sr : F64) : F64 :=
  (Config.rawTriDelta shadow amount period sr).nz

/-- The spec's default for `CFG.tri_delta` (R150, decision D18). The machine does not use it; a claim
about the size of the triangle's delta names `triDelta = triDeltaDefault` as a premise. DESIGN CHOICE: at a
NaN amount R150's formula, which is followed, gives shadow / period, and its prose ("the Up/Down delta
divided by the period parameter") with R148's corner case gives 0 (notes/assumptions 24). -/
def triDeltaDefault (shadow amount period _sr : F64) : F64 :=
  ((shadow.mul (exp2 (amount.sub K.SWEEP_BIAS).nz).nz).nz.div period).nz

end CFG
end Sys2Proof.Machine
end

