-- ==== Sys2Proof/Machine/Nibble.lean ====
section
/-! DEFINITION. The Nibble and its arithmetic (40_nibble.md R100 to R106). A Nibble is held by its
4-bit code; its level is the code read as two's complement. -/

namespace Sys2Proof.Machine

/-- `NIB_ZERO`, the "Nibble zero level", silence (R100). -/
def NIB_ZERO : Nibble := 0

/-- `s4(b)`: the level of a code (00_scope.md R9). -/
def level (n : Nibble) : Int := n.toInt

/-- `clamp(NIB_MIN, NIB_MAX, q)` on integers, as a Nibble. -/
def clampNibble (q : Int) : Nibble :=
  BitVec.ofInt 4 (if q < K.NIB_MIN then K.NIB_MIN else if q > K.NIB_MAX then K.NIB_MAX else q)

/-- `fromFloat(f)` (R101). Its operand is not NaN: `fromFloat(NaN)` does not exist
(93_implementation_defined.md U1), so the function asks for the proof. -/
def fromFloat (f : F64) (_h : f.isNaN = false) : Nibble :=
  let c := F64.clamp (F64.real (-1)) F64.one f
  clampNibble (if c.lt F64.zero then (c.mul K.NEG_DIV).rnd else (c.mul K.POS_DIV).rnd)

/-- `toFloat(n)` (R102). -/
def toFloat (n : Nibble) : F64 :=
  if level n = 0 then F64.zero
  else if level n < 0 then (F64.real (level n)).div K.NEG_DIV
  else (F64.real (level n)).div K.POS_DIV

/-- `nib_add(a, b)` (R103): the sum saturates. No rule of files 41 to 47 uses it. -/
def nibAdd (a b : Nibble) : Nibble := clampNibble (level a + level b)

/-- `nib_scale(n, g)` (R104) for a finite gain `g`; an overflowing product clamps by its sign. -/
def nibScale (n : Nibble) (g : F64) : Nibble :=
  let p := (F64.real (level n)).mul g
  if p.isInf then (if p.sign then BitVec.ofInt 4 K.NIB_MIN else BitVec.ofInt 4 K.NIB_MAX)
  else clampNibble p.rnd

end Sys2Proof.Machine
end

