-- ==== Sys2Proof/Machine/Square.lean ====
section
/-! DEFINITION. The Square Oscillator (41_square.md R110 to R117). Plain binary64 arithmetic, without
`nz` (00_scope.md R10). -/

namespace Sys2Proof.Machine

/-- `DUTY[d]` (R111). -/
def dutyRatio (d : SquareDuty) : F64 := K.DUTY[d.code.val]

/-- `pulse(phase, d)` (R111): low for the first `DUTY[d]` of the period. -/
def pulse (phase : F64) (d : SquareDuty) : Nibble :=
  if phase.lt (dutyRatio d) then BitVec.ofInt 4 K.NIB_MIN else BitVec.ofInt 4 K.NIB_MAX

/-- The increment of R112, for the given `SQ_BEND` (R114). -/
def sqIncrement (bend : Bool) (frequency ratio sr : F64) : F64 :=
  if bend then (frequency.mul ratio).div sr else frequency.div sr

/-- The reduction of R112: the fractional part of a finite sum, 0.0 for any other. DESIGN CHOICE: R112's
corner case says that an increment of exactly 1 holds the phase; its pseudocode, which is followed,
holds it up to the rounding of the sum (notes/assumptions 27). A sum that is not finite arises also from
a finite frequency at a tiny sample rate (notes/assumptions 33). -/
def wrapUnit (t : F64) : F64 :=
  if t.isFinite then
    let p := t.sub (F64.real t.floor)
    if p.ge F64.one || p.lt F64.zero then F64.zero else p
  else F64.zero

/-- `sq.advance(sr)` (R112). DESIGN CHOICE: R116 says that the low ticks of a period are within one of
`DUTY[d] * sr / frequency`; R112's rounded sum is followed, by which the phase stalls where the increment
is too small beside it, and R116 fails (notes/assumptions 35). -/
def sqAdvance (bend : Bool) (ratio sr : F64) (sq : Square) : Square :=
  { sq with phase := wrapUnit (sq.phase.add (sqIncrement bend sq.frequency ratio sr)) }

/-- `sq.process(sr)` (R115): the output is computed from the phase before the advance. -/
def sqProcess (bend : Bool) (ratio : F64) (duty : SquareDuty) (sr : F64) (sq : Square) :
    Nibble × Square :=
  (pulse sq.phase duty, sqAdvance bend ratio sr sq)

/-- `pitch(note)` (R113). -/
def pitch (note : Byte) : F64 :=
  K.A4_HZ.mul (CFG.exp2 ((F64.real ((note.toNat : Int) - K.A4_NOTE)).div K.SEMIS))

/-- `sq.setPitch(note)` (R113). -/
def sqSetPitch (note : Byte) (sq : Square) : Square := { sq with frequency := pitch note }

end Sys2Proof.Machine
end

