-- ==== Sys2Proof/Machine/Sweep.lean ====
section
/-! DEFINITION. The Frequency Sweep (44_sweep.md R145 to R155). Every operation and every function
result is flushed by `nz`, as the rules write it out (00_scope.md R10). -/

namespace Sys2Proof.Machine

/-- `T = nz(par.SweepPeriod * (1.0 / SWEEP_HZ))`, one sweep period in seconds (R148, R149). A period of
+inf, or one too small, is flushed to `T` = 0 (notes/assumptions 32). -/
def sweepPeriodSeconds (period : F64) : F64 := (period.mul (F64.one.div K.SWEEP_HZ)).nz

/-- `nz(sw.timer + nz(1.0 / sr))` (R148, R149). The timer stands still where `nz` flushes `1/sr` or the sum
rounds to the timer (notes/assumptions 32, 35). -/
def timerAdvanced (sr : F64) (sw : Sweep) : F64 := (sw.timer.add (F64.one.div sr).nz).nz

/-- The delta of Up and Down (R148). DESIGN CHOICE: for a NaN amount R148 disagrees with itself, its
pseudocode giving the shadow frequency (the difference is flushed to 0 before `CFG.exp2`) and its
corner cases saying that "a NaN amount gives `d` = 0 through `nz`"; the sentence that names the case
is followed (notes/assumptions 24). R148's other remarks on the delta hold where `nz` flushes nothing
(notes/assumptions 32). -/
def sweepDelta (shadow amount : F64) : F64 :=
  if amount.isNaN then F64.zero else (shadow.mul (CFG.exp2 (amount.sub K.SWEEP_BIAS).nz).nz).nz

/-- Modes Up and Down (R148). -/
def swUpDown (up : Bool) (par : Params) (sr : F64) (sw : Sweep) : F64 × Sweep :=
  let timer := timerAdvanced sr sw
  if timer.ge (sweepPeriodSeconds par.SweepPeriod) then
    let d := sweepDelta sw.shadow_freq par.SweepAmount
    if up then (d, clipCheck { sw with timer := F64.zero, shadow_freq := (sw.shadow_freq.add d).nz })
    else (d.neg.nz, clipCheck { sw with timer := F64.zero, shadow_freq := (sw.shadow_freq.sub d).nz })
  else (F64.zero, { sw with timer := timer })

/-- The signed delta of the triangle, chosen by the timer before this tick's advance (R149). The four
phases are of equal length where `nz` flushes neither `T` nor the quarter (notes/assumptions 32). -/
def triangleDelta (d : F64) (period : F64) (timer : F64) : F64 :=
  let q := ((sweepPeriodSeconds period).div (F64.real 4)).nz
  let q3 := (q.mul (F64.real 3)).nz
  if timer.lt q then d else if timer.lt q3 then d.neg.nz else d

/-- Mode Triangle (R149), for the given value `d` of `CFG.tri_delta`. -/
def swTriangle (d : F64) (par : Params) (sr : F64) (sw : Sweep) : F64 × Sweep :=
  let r := triangleDelta d par.SweepPeriod sw.timer
  let timer := timerAdvanced sr sw
  (r, clipCheck
    { sw with
      shadow_freq := (sw.shadow_freq.add r).nz
      timer := if timer.ge (sweepPeriodSeconds par.SweepPeriod) then F64.zero else timer })

/-- `sw.process(sr)` (R146, R147, R151). -/
def swProcess (par : Params) (sr : F64) (sw : Sweep) : F64 × Sweep :=
  if par.SweepAmount.eq F64.zero || par.SweepPeriod.eq F64.zero then (F64.zero, sw)
  else
    match par.SweepType with
    | .none => (F64.zero, sw)
    | .up => swUpDown true par sr sw
    | .down => swUpDown false par sr sw
    | .triangle =>
      swTriangle (CFG.triDelta sw.shadow_freq par.SweepAmount par.SweepPeriod sr) par sr sw

/-- `sw.reset(f)` (R153): `f` is stored as given, without `nz` and without a clip check. -/
def swReset (f : F64) : Sweep := { shadow_freq := f, clipped := false, timer := F64.zero }

end Sys2Proof.Machine
end

