-- ==== Sys2Proof/Machine/Events.lean ====
section
/-! DEFINITION. The event commands `NOTE_ON`, `NOTE_OFF`, `PITCH_BEND`, `SWEEP_RESET`
(47_voice.md R201 to R204). -/

namespace Sys2Proof.Machine

/-- `NOTE_ON note, velocity` (R201). -/
def execNoteOn (note : Byte) (velocity : F64) (s : State) : Answer :=
  .next (done
    (((((s.setVo { freq := pitch note }).setSq (sqSetPitch note s.sq)).setWt
      { s.wt with frequency := pitch note }).setSw (swReset (pitch note))).setEnv
        (envNoteOn note velocity s.par s.env)))

/-- `NOTE_OFF note` (R202): the note is not compared with `env.note`. -/
def execNoteOff (_note : Byte) (s : State) : Answer :=
  .next (done (s.setEnv (envNoteOff s.par s.env)))

/-- `PITCH_BEND ratio` (R203): the ratio is stored as given. -/
def execPitchBend (ratio : F64) (s : State) : Answer :=
  .next (done (s.setWt { s.wt with pitch_ratio := ratio }))

/-- `SWEEP_RESET freq` (R204): only the sweep is affected. -/
def execSweepReset (freq : F64) (s : State) : Answer :=
  .next (done (s.setSw (swReset freq)))

end Sys2Proof.Machine
end

