-- ==== Sys2Proof/Machine/GetParam.lean ====
section
/-! DEFINITION. `GET_PARAM`, one meaning per parameter register (47_voice.md R231). An enumeration
code is returned as `real(code)`; the block does not change. -/

namespace Sys2Proof.Machine

/-- A real parameter returned (R231). -/
def loadParam (v : F64) (s : State) : Answer := .next (respondReal v s)

/-- An enumeration code returned (R231). -/
def loadCode (code : Nat) (s : State) : Answer := loadParam (F64.real code) s

/-- `GET_PARAM MasterVolume` (R231; id 0). -/
def execGetParamMasterVolume (s : State) : Answer := loadParam s.par.MasterVolume s

/-- `GET_PARAM PitchBend` (R231; id 1). -/
def execGetParamPitchBend (s : State) : Answer := loadParam s.par.PitchBend s

/-- `GET_PARAM Detune` (R231; id 2). -/
def execGetParamDetune (s : State) : Answer := loadParam s.par.Detune s

/-- `GET_PARAM OscType` (R231; id 3). -/
def execGetParamOscType (s : State) : Answer := loadCode s.par.OscType.code s

/-- `GET_PARAM SweepType` (R231; id 4). -/
def execGetParamSweepType (s : State) : Answer := loadCode s.par.SweepType.code s

/-- `GET_PARAM SweepAmount` (R231; id 5). -/
def execGetParamSweepAmount (s : State) : Answer := loadParam s.par.SweepAmount s

/-- `GET_PARAM SweepPeriod` (R231; id 6). -/
def execGetParamSweepPeriod (s : State) : Answer := loadParam s.par.SweepPeriod s

/-- `GET_PARAM StutterTime` (R231; id 7). -/
def execGetParamStutterTime (s : State) : Answer := loadParam s.par.StutterTime s

/-- `GET_PARAM StutterDepth` (R231; id 8). -/
def execGetParamStutterDepth (s : State) : Answer := loadParam s.par.StutterDepth s

/-- `GET_PARAM StutterWhen` (R231; id 9). -/
def execGetParamStutterWhen (s : State) : Answer := loadCode s.par.StutterWhen.code s

/-- `GET_PARAM EgAttack` (R231; id 10). -/
def execGetParamEgAttack (s : State) : Answer := loadParam s.par.EgAttack s

/-- `GET_PARAM EgDecay` (R231; id 11). -/
def execGetParamEgDecay (s : State) : Answer := loadParam s.par.EgDecay s

/-- `GET_PARAM EgSustain` (R231; id 12). -/
def execGetParamEgSustain (s : State) : Answer := loadParam s.par.EgSustain s

/-- `GET_PARAM EgRelease` (R231; id 13). -/
def execGetParamEgRelease (s : State) : Answer := loadParam s.par.EgRelease s

/-- `GET_PARAM SquareDuty` (R231; id 14). -/
def execGetParamSquareDuty (s : State) : Answer := loadCode s.par.SquareDuty.code.val s

/-- `GET_PARAM NoiseInterval` (R231; id 15). -/
def execGetParamNoiseInterval (s : State) : Answer := loadParam s.par.NoiseInterval s

/-- `GET_PARAM DacFreq` (R231; id 16). -/
def execGetParamDacFreq (s : State) : Answer := loadParam s.par.DacFreq s

/-- `GET_PARAM DacQ` (R231; id 17). -/
def execGetParamDacQ (s : State) : Answer := loadParam s.par.DacQ s

end Sys2Proof.Machine
end

