-- ==== Sys2Proof/Machine/Query.lean ====
section
/-! DEFINITION. The two queries, `QUERY_ASSIGNABLE` (45_envelope.md R176) and `GET_STATUS`
(47_voice.md R233). Neither changes the block. -/

namespace Sys2Proof.Machine

/-- `QUERY_ASSIGNABLE note` (R176): the answer in `rdata[0]`, the other bits 0. -/
def execQueryAssignable (note : Byte) (s : State) : Answer :=
  .next (respond ((0#127) ++ flagBit (assignable note s.par s.env)) s)

/-- `GET_STATUS` (R233). -/
def execGetStatus (s : State) : Answer :=
  .next (respond (statusView s.env s.sw.clipped s.dac.dirty) s)

end Sys2Proof.Machine
end

