-- ==== Sys2Proof/Machine/SetParam.lean ====
section
/-! DEFINITION. `SET_PARAM`, one meaning per parameter register (47_voice.md R211 to R230). -/

namespace Sys2Proof.Machine

/-- A parameter register written and nothing else (R211). -/
def storeParam (par : Params) (s : State) : Answer := .next (done (s.setPar par))

/-- An enumeration register written with the code of a value, or `NotRepresentable`
(R211, 60_exceptions.md R250). -/
def storeCode {α : Type} (code : Option α) (write : α → Params) (s : State) : Answer :=
  match code with
  | some c => storeParam (write c) s
  | none => .next (raise .notRepresentable s)

/-- The pitch ratio of the two semitone offsets (R212). -/
def ratioOf (par : Params) : F64 :=
  CFG.exp2 (((par.PitchBend.add par.Detune).mul (F64.real 100)).div K.CENTS_OCT)

/-- A semitone offset written, then `vo.recompute_ratio()` (R212). -/
def storeOffset (par : Params) (s : State) : Answer :=
  .next (done ((s.setPar par).setWt { s.wt with pitch_ratio := ratioOf par }))

/-- A DAC parameter written; the flag is set whatever the value (R229, R230). -/
def storeDac (par : Params) (s : State) : Answer :=
  .next (done ((s.setPar par).setDac (markDirty s.dac)))

/-- `SET_PARAM MasterVolume, value` (R213; id 0, real, unit not stated). -/
def execSetParamMasterVolume (value : F64) (s : State) : Answer :=
  storeParam { s.par with MasterVolume := value } s

/-- `SET_PARAM PitchBend, value` (R214; id 1, real, semitones). -/
def execSetParamPitchBend (value : F64) (s : State) : Answer :=
  storeOffset { s.par with PitchBend := value } s

/-- `SET_PARAM Detune, value` (R215; id 2, real, semitones). -/
def execSetParamDetune (value : F64) (s : State) : Answer :=
  storeOffset { s.par with Detune := value } s

/-- `SET_PARAM OscType, value` (R216; id 3, enumeration). -/
def execSetParamOscType (value : F64) (s : State) : Answer :=
  storeCode (oscTypeOf value) (fun c => { s.par with OscType := c }) s

/-- `SET_PARAM SweepType, value` (R217; id 4, enumeration). -/
def execSetParamSweepType (value : F64) (s : State) : Answer :=
  storeCode (sweepTypeOf value) (fun c => { s.par with SweepType := c }) s

/-- `SET_PARAM SweepAmount, value` (R218; id 5, real, exponent units). -/
def execSetParamSweepAmount (value : F64) (s : State) : Answer :=
  storeParam { s.par with SweepAmount := value } s

/-- `SET_PARAM SweepPeriod, value` (R219; id 6, real, ticks of 1/`SWEEP_HZ` s). -/
def execSetParamSweepPeriod (value : F64) (s : State) : Answer :=
  storeParam { s.par with SweepPeriod := value } s

/-- `SET_PARAM StutterTime, value` (R220; id 7, real, seconds). -/
def execSetParamStutterTime (value : F64) (s : State) : Answer :=
  storeParam { s.par with StutterTime := value } s

/-- `SET_PARAM StutterDepth, value` (R221; id 8, real, percent). -/
def execSetParamStutterDepth (value : F64) (s : State) : Answer :=
  storeParam { s.par with StutterDepth := value } s

/-- `SET_PARAM StutterWhen, value` (R222; id 9, enumeration). -/
def execSetParamStutterWhen (value : F64) (s : State) : Answer :=
  storeCode (stutterWhenOf value) (fun c => { s.par with StutterWhen := c }) s

/-- `SET_PARAM EgAttack, value` (R223; id 10, real, seconds). -/
def execSetParamEgAttack (value : F64) (s : State) : Answer :=
  storeParam { s.par with EgAttack := value } s

/-- `SET_PARAM EgDecay, value` (R224; id 11, real, seconds). -/
def execSetParamEgDecay (value : F64) (s : State) : Answer :=
  storeParam { s.par with EgDecay := value } s

/-- `SET_PARAM EgSustain, value` (R225; id 12, real, level). -/
def execSetParamEgSustain (value : F64) (s : State) : Answer :=
  storeParam { s.par with EgSustain := value } s

/-- `SET_PARAM EgRelease, value` (R226; id 13, real, seconds). -/
def execSetParamEgRelease (value : F64) (s : State) : Answer :=
  storeParam { s.par with EgRelease := value } s

/-- `SET_PARAM SquareDuty, value` (R227; id 14, enumeration). -/
def execSetParamSquareDuty (value : F64) (s : State) : Answer :=
  storeCode (squareDutyOf value) (fun c => { s.par with SquareDuty := c }) s

/-- `SET_PARAM NoiseInterval, value` (R228; id 15, real, milliseconds). -/
def execSetParamNoiseInterval (value : F64) (s : State) : Answer :=
  storeParam { s.par with NoiseInterval := value } s

/-- `SET_PARAM DacFreq, value` (R229; id 16, real, Hz). -/
def execSetParamDacFreq (value : F64) (s : State) : Answer :=
  storeDac { s.par with DacFreq := value } s

/-- `SET_PARAM DacQ, value` (R230; id 17, real, no unit). -/
def execSetParamDacQ (value : F64) (s : State) : Answer :=
  storeDac { s.par with DacQ := value } s

end Sys2Proof.Machine
end

