-- ==== Sys2Proof/Machine/Wavetable.lean ====
section
/-! DEFINITION. The Wavetable Oscillator (43_wavetable.md R130 to R133) and the table contents of its
reset commands (R136, R137). Plain binary64 arithmetic, without `nz` (00_scope.md R10). -/

namespace Sys2Proof.Machine

/-- `real(WT_LEN)`. -/
def wtLen : F64 := F64.real WT_LEN

/-- `wt.lookup()` (R131). -/
def wtLookup (wt : Wavetable) : Option Nibble := tabRead wt.table wt.phase.floor

/-- The increment of R132, in the order written there. -/
def wtIncrement (wt : Wavetable) (sr : F64) : F64 :=
  ((wt.frequency.mul wt.pitch_ratio).div sr).mul wtLen

/-- The reduction of R132: the floored modulus of a finite sum, 0.0 for any other. DESIGN CHOICE: R132's
corner case says that an increment of exactly 32 holds the phase; its pseudocode, which is followed,
holds it up to the rounding of the sum (notes/assumptions 27). A sum that is not finite arises also from
finite operands (notes/assumptions 33). -/
def wrapTable (t : F64) : F64 :=
  if t.isFinite then
    let p := t.sub (wtLen.mul (F64.real (t.div wtLen).floor))
    if p.ge wtLen || p.lt F64.zero then F64.zero else p
  else F64.zero

/-- `wt.advance(sr)` (R132). -/
def wtAdvance (sr : F64) (wt : Wavetable) : Wavetable :=
  { wt with phase := wrapTable (wt.phase.add (wtIncrement wt sr)) }

/-- `wt.process(sr)` (R133): the look-up is on the phase before the advance. There is no result where
the look-up has none. -/
def wtProcess (sr : F64) (wt : Wavetable) : Option (Nibble × Wavetable) :=
  (wtLookup wt).map fun out => (out, wtAdvance sr wt)

/-- The argument of the sine at entry `i` (R136), in radians. -/
def sineAngle (i : Nat) : F64 := (((F64.real 2).mul F64.pi).mul (F64.real i)).div wtLen

theorem sineAngle_finite (i : Fin WT_LEN) : (sineAngle i.val).isFinite = true := by
  revert i; decide +kernel

theorem inUnit_not_nan {r : F64} (h : CFG.inUnit r = true) : r.isNaN = false := by
  simp only [CFG.inUnit, F64.ge, F64.le, Bool.and_eq_true, Bool.not_eq_true'] at h
  exact h.2.1.1

/-- `CFG.sin` is no NaN at a finite argument (`P_TRIG_RANGE`), so `fromFloat` applies to it. -/
theorem sin_not_nan {x : F64} (h : x.isFinite = true) : (CFG.sin x).isNaN = false := by
  have hz : F64.zero.isNaN = false := by decide +kernel
  simp only [CFG.sin, h, if_true]
  split
  · split
    · rename_i hr
      simp only [F64.isZero, beq_iff_eq] at hr
      simp only [F64.isNaN, hr, decide_eq_false_iff_not]
      omega
    · exact hz
  · split
    · rename_i hr; exact inUnit_not_nan hr
    · exact hz

/-- The sine table of `RESET_WT_SINE` (R136). -/
def sineTable : Vector Nibble WT_LEN :=
  Vector.ofFn fun i => fromFloat (CFG.sin (sineAngle i.val)) (sin_not_nan (sineAngle_finite i))

end Sys2Proof.Machine
end

