-- ==== Sys2Proof/Machine/Table.lean ====
section
/-! DEFINITION. The table commands (43_wavetable.md R134 to R138; 47_voice.md R205). -/

namespace Sys2Proof.Machine

/-- The wavetable written, nothing else. -/
def State.setTable (s : State) (t : Vector Nibble WT_LEN) : State := s.setWt { s.wt with table := t }

/-- `SET_WT_SAMPLE idx, value` (R134): an index of 32 or more changes nothing and is no error. -/
def execSetWtSample (idx : Byte) (value : Nibble) (s : State) : Answer :=
  .next (done (s.setTable (tabWrite s.wt.table idx.toNat value)))

/-- `RESET_WT_SINE` (R136). -/
def execResetWtSine (s : State) : Answer := .next (done (s.setTable sineTable))

/-- `RESET_WT_RANDOM` (R137): the table is a free value, a fresh one at each execution
(notes/assumptions 8). -/
def execResetWtRandom (s : State) : Answer :=
  .next (done (s.setTable (Config.drawTable s.draws)).drawn)

/-- `GET_WAVETABLE` (R138). -/
def execGetWavetable (s : State) : Answer := .next (respond (packTable s.wt.table) s)

/-- `SET_WAVETABLE n0, ..., n31` (R135). -/
def execSetWavetable (table : Vector Nibble WT_LEN) (s : State) : Answer :=
  .next (done (s.setTable table))

end Sys2Proof.Machine
end

