-- ==== Sys2Proof/Machine/Dac.lean ====
section
/-! DEFINITION. The DAC (46_dac.md R190 to R196). Every operation and every function result is flushed
by `nz`, as the rules write it out (00_scope.md R10). -/

namespace Sys2Proof.Machine

/-- The angle `w` of R192. -/
def dacAngle (freq sr : F64) : F64 := ((((F64.real 2).mul F64.pi).nz.mul freq).nz.div sr).nz

/-- `dac.recompute(sr)` (R192). -/
def dacRecompute (par : Params) (sr : F64) (dac : Dac) : Dac :=
  let w := dacAngle par.DacFreq sr
  let cw := (CFG.cos w).nz
  let sn := (CFG.sin w).nz
  let a := (sn.div ((F64.real 2).mul par.DacQ).nz).nz
  let b1 := (F64.one.sub cw).nz
  let b0 := (b1.div (F64.real 2)).nz
  let b2 := b0
  let a0 := (F64.one.add a).nz
  let a1 := ((F64.real (-2)).mul cw).nz
  let a2 := (F64.one.sub a).nz
  { dac with
    b0n := (b0.div a0).nz, b1n := (b1.div a0).nz, b2n := (b2.div a0).nz
    a1n := (a1.div a0).nz, a2n := (a2.div a0).nz, dirty := false }

/-- The output of the difference equation (R193), summed in the order written there. -/
def dacOutput (x : F64) (dac : Dac) : F64 :=
  let y := (dac.b0n.mul x).nz
  let y := (y.add (dac.b1n.mul dac.x1).nz).nz
  let y := (y.add (dac.b2n.mul dac.x2).nz).nz
  let y := (y.sub (dac.a1n.mul dac.y1).nz).nz
  (y.sub (dac.a2n.mul dac.y2).nz).nz

/-- `dac.filter(x)` (R193). -/
def dacFilter (x : F64) (dac : Dac) : F64 × Dac :=
  (dacOutput x dac, { dac with x2 := dac.x1, x1 := x, y2 := dac.y1, y1 := dacOutput x dac })

/-- The first step of `dac.process` (R194). -/
def dacRefresh (par : Params) (sr : F64) (dac : Dac) : Dac :=
  if dac.dirty then dacRecompute par sr dac else dac

/-- `dac.process(sr, n)` (R194). -/
def dacProcess (par : Params) (sr : F64) (n : Nibble) (dac : Dac) : F64 × Dac :=
  dacFilter (toFloat n) (dacRefresh par sr dac)

end Sys2Proof.Machine
end

