-- ==== Sys2Proof/Machine/Noise.lean ====
section
/-! DEFINITION. The Noise Oscillator (42_noise.md R120 to R122). Plain binary64 arithmetic, without
`nz` (00_scope.md R10). -/

namespace Sys2Proof.Machine

/-- The next index, modulo `NOISE_LEN` (R121). -/
def nextNoiseIndex (i : Fin NOISE_LEN) : Fin NOISE_LEN := Fin.ofNat NOISE_LEN (i.val + 1)

/-- Whether the counter reaches the interval (R121), `q` being the interval in seconds. DESIGN CHOICE
where sentences of the spec disagree (notes/assumptions 26): R121's corner cases are followed at both
infinities. No counter reaches `q` = +inf, not even an infinite one, which R121's pseudocode would let
reach it; every counter reaches `q` = -inf, an interval <= 0, as the pseudocode has it too, but not
70_reset_and_hazards.md R282. -/
def intervalReached (c q : F64) : Bool := c.ge q && !(q.isInf && !q.sign)

/-- The state part of `no.process(sr)` (R121). A counter so large that the sum rounds to it stands still,
below its interval too (notes/assumptions 35). -/
def noAdvance (interval sr : F64) (no : Noise) : Noise :=
  let c := no.sec_counter.add (F64.one.div sr)
  if intervalReached c (interval.div K.MS_PER_S) then
    { sec_counter := F64.zero, index := nextNoiseIndex no.index }
  else { no with sec_counter := c }

/-- `no.process(sr)` (R121): the entry returned is the one at the index after the step. -/
def noProcess (interval sr : F64) (no : Noise) : Nibble × Noise :=
  (Config.noiseTable (noAdvance interval sr no).index, noAdvance interval sr no)

end Sys2Proof.Machine
end

