-- ==== Sys2Proof/Machine/Tick.lean ====
section
/-! DEFINITION. The sample tick `PROCESS` (47_voice.md R210, R235). -/

namespace Sys2Proof.Machine

/-- The sweep's part of a tick: the delta is added to the running frequency by a plain binary64 add
(R210). -/
def sweepStage (sr : F64) (s : State) : State :=
  (s.setSw (swProcess s.par sr s.sw).2).setVo { freq := s.vo.freq.add (swProcess s.par sr s.sw).1 }

/-- The oscillator's part of a tick: the selected one is stepped, the square and the wavetable with
the running frequency (R210). -/
def oscillatorStage (sr : F64) (s : State) : Except Fault (Nibble × State) :=
  match s.par.OscType with
  | .square =>
    let r := sqProcess Config.sqBend s.wt.pitch_ratio s.par.SquareDuty sr
      { s.sq with frequency := s.vo.freq }
    .ok (r.1, s.setSq r.2)
  | .noise =>
    let r := noProcess s.par.NoiseInterval sr s.no
    .ok (r.1, s.setNo r.2)
  | .wavetable =>
    match wtProcess sr { s.wt with frequency := s.vo.freq } with
    | some r => .ok (r.1, s.setWt r.2)
    | none => .error .wavetableIndexOutOfRange

/-- The sample `o` of a tick and the state with sweep and oscillator stepped; while the sweep is
clipped neither is stepped and the sample is silence (R210, decision D19). -/
def sampleStage (sr : F64) (s : State) : Except Fault (Nibble × State) :=
  if s.sw.clipped then .ok (NIB_ZERO, s) else oscillatorStage sr (sweepStage sr s)

/-- The envelope's and the DAC's part of a tick, which always run (R210). -/
def outputStage (sr : F64) (o : Nibble) (s : State) : State :=
  let g := envProcess s.par sr s.env
  let y := dacProcess s.par sr (nibScale o g.1) s.dac
  respondReal y.1 ((s.setEnv g.2).setDac y.2)

/-- `PROCESS sr` (R210); a sample rate that is not finite and positive is refused (R235). -/
def execProcess (sr : F64) (s : State) : Answer :=
  if acceptedRate sr then
    match sampleStage sr s with
    | .ok r => .next (outputStage sr r.1 r.2)
    | .error f => .fault f
  else .refused .sampleRateNotFinitePositive

end Sys2Proof.Machine
end

