-- ==== Sys2Proof/Machine/Dispatch.lean ====
section
/-! DEFINITION. The dispatcher: one arm per command, each a direct call of its meaning. -/

namespace Sys2Proof.Machine

def exec (i : Instr) (s : State) : Host.Outcome State Fault Refusal :=
  match i with
  | .noteOn note velocity => Sys2Proof.Machine.execNoteOn note velocity s
  | .noteOff note => Sys2Proof.Machine.execNoteOff note s
  | .pitchBend ratio => Sys2Proof.Machine.execPitchBend ratio s
  | .sweepReset freq => Sys2Proof.Machine.execSweepReset freq s
  | .setWtSample idx value => Sys2Proof.Machine.execSetWtSample idx value s
  | .resetWtSine => Sys2Proof.Machine.execResetWtSine s
  | .resetWtRandom => Sys2Proof.Machine.execResetWtRandom s
  | .setParamMasterVolume value => Sys2Proof.Machine.execSetParamMasterVolume value s
  | .setParamPitchBend value => Sys2Proof.Machine.execSetParamPitchBend value s
  | .setParamDetune value => Sys2Proof.Machine.execSetParamDetune value s
  | .setParamOscType value => Sys2Proof.Machine.execSetParamOscType value s
  | .setParamSweepType value => Sys2Proof.Machine.execSetParamSweepType value s
  | .setParamSweepAmount value => Sys2Proof.Machine.execSetParamSweepAmount value s
  | .setParamSweepPeriod value => Sys2Proof.Machine.execSetParamSweepPeriod value s
  | .setParamStutterTime value => Sys2Proof.Machine.execSetParamStutterTime value s
  | .setParamStutterDepth value => Sys2Proof.Machine.execSetParamStutterDepth value s
  | .setParamStutterWhen value => Sys2Proof.Machine.execSetParamStutterWhen value s
  | .setParamEgAttack value => Sys2Proof.Machine.execSetParamEgAttack value s
  | .setParamEgDecay value => Sys2Proof.Machine.execSetParamEgDecay value s
  | .setParamEgSustain value => Sys2Proof.Machine.execSetParamEgSustain value s
  | .setParamEgRelease value => Sys2Proof.Machine.execSetParamEgRelease value s
  | .setParamSquareDuty value => Sys2Proof.Machine.execSetParamSquareDuty value s
  | .setParamNoiseInterval value => Sys2Proof.Machine.execSetParamNoiseInterval value s
  | .setParamDacFreq value => Sys2Proof.Machine.execSetParamDacFreq value s
  | .setParamDacQ value => Sys2Proof.Machine.execSetParamDacQ value s
  | .getParamMasterVolume => Sys2Proof.Machine.execGetParamMasterVolume s
  | .getParamPitchBend => Sys2Proof.Machine.execGetParamPitchBend s
  | .getParamDetune => Sys2Proof.Machine.execGetParamDetune s
  | .getParamOscType => Sys2Proof.Machine.execGetParamOscType s
  | .getParamSweepType => Sys2Proof.Machine.execGetParamSweepType s
  | .getParamSweepAmount => Sys2Proof.Machine.execGetParamSweepAmount s
  | .getParamSweepPeriod => Sys2Proof.Machine.execGetParamSweepPeriod s
  | .getParamStutterTime => Sys2Proof.Machine.execGetParamStutterTime s
  | .getParamStutterDepth => Sys2Proof.Machine.execGetParamStutterDepth s
  | .getParamStutterWhen => Sys2Proof.Machine.execGetParamStutterWhen s
  | .getParamEgAttack => Sys2Proof.Machine.execGetParamEgAttack s
  | .getParamEgDecay => Sys2Proof.Machine.execGetParamEgDecay s
  | .getParamEgSustain => Sys2Proof.Machine.execGetParamEgSustain s
  | .getParamEgRelease => Sys2Proof.Machine.execGetParamEgRelease s
  | .getParamSquareDuty => Sys2Proof.Machine.execGetParamSquareDuty s
  | .getParamNoiseInterval => Sys2Proof.Machine.execGetParamNoiseInterval s
  | .getParamDacFreq => Sys2Proof.Machine.execGetParamDacFreq s
  | .getParamDacQ => Sys2Proof.Machine.execGetParamDacQ s
  | .process sr => Sys2Proof.Machine.execProcess sr s
  | .getWavetable => Sys2Proof.Machine.execGetWavetable s
  | .setWavetable table => Sys2Proof.Machine.execSetWavetable table s
  | .queryAssignable note => Sys2Proof.Machine.execQueryAssignable note s
  | .getStatus => Sys2Proof.Machine.execGetStatus s

end Sys2Proof.Machine
end

