-- ==== Sys2Proof/Machine/Step.lean ====
section
/-! DEFINITION. One step of the block: the first command word on the port is taken, decoded and executed
(30_encoding.md R80, R86, R87; 20_memory.md R67). -/

namespace Sys2Proof.Machine

/-- One step. With no command on the port the block is idle (notes/assumptions 1); an illegal word is
answered with `ILLEGAL_COMMAND` and changes nothing else (R87). -/
def step (s : State) : Host.Outcome State Fault Refusal :=
  match s.port.commands with
  | [] => .next s
  | w :: rest =>
    match decode w with
    | .ok i => exec i (s.setCommands rest)
    | .error _ => .next (raise .illegalCommand (s.setCommands rest))

/-- The state with one command word presented before all others (notes/assumptions 3). -/
def State.withFetchWord (s : State) (nbits w : Nat) : State :=
  s.setCommands (tableWord nbits w :: s.port.commands)

end Sys2Proof.Machine
end

