-- ==== Sys2Proof/Safety.lean ====
section
/-! DEFINITION. The terms the claims use: what "unchanged" and "answered" mean, the invariants the
registers keep, and the commands by family. -/

namespace Sys2Proof.Machine

/-- The state R20 lists is the same: every register, flag, table entry and parameter. -/
def SameBlock (s t : State) : Prop :=
  t.sq = s.sq ∧ t.no = s.no ∧ t.wt = s.wt ∧ t.sw = s.sw ∧ t.env = s.env ∧ t.dac = s.dac ∧
    t.vo = s.vo ∧ t.par = s.par

/-- The command was answered with this status and result, and the commands waiting are the same. -/
def Answered (s t : State) (st : Status) (rdata : Data) : Prop :=
  t.port = { s.port with response := some (responseWord st rdata) }

/-- The status field of a response word, `RW[135:128]` (30_encoding.md R84). -/
def statusField (w : ResponseWord) : Byte := w.extractLsb' 128 8

/-- The result field of a response word, `RW[127:0]` (30_encoding.md R84). -/
def rdataField (w : ResponseWord) : Data := w.extractLsb' 0 128

/-- In the half-open interval from `lo` to `hi`; a NaN is in none. -/
def inRange (lo hi x : F64) : Bool := x.ge lo && x.lt hi

/-- `sq.phase` in [0, 1) and `wt.phase` in [0, `WT_LEN`) (10_state.md R22, R24;
70_reset_and_hazards.md R282). -/
def PhasesInRange (s : State) : Bool :=
  inRange F64.zero F64.one s.sq.phase && inRange F64.zero wtLen s.wt.phase

/-- Every coefficient and every history register of the DAC is finite (46_dac.md R193). -/
def DacFinite (d : Dac) : Bool :=
  d.b0n.isFinite && d.b1n.isFinite && d.b2n.isFinite && d.a1n.isFinite && d.a2n.isFinite &&
    d.x1.isFinite && d.x2.isFinite && d.y1.isFinite && d.y2.isFinite

/-- A voice that is note-on has received a NoteOn (10_state.md R31). -/
def NoteFlagsAgree (e : Envelope) : Bool := !e.note_on || e.note_valid

/-- The real registers of the datapath. -/
def datapathReals (s : State) : List F64 :=
  [s.sq.phase, s.sq.frequency, s.no.sec_counter, s.wt.phase, s.wt.frequency, s.wt.pitch_ratio,
    s.sw.shadow_freq, s.sw.timer, s.env.last_state_value, s.env.value, s.env.velocity,
    s.env.stutter_velocity, s.dac.b0n, s.dac.b1n, s.dac.b2n, s.dac.a1n, s.dac.a2n, s.dac.x1,
    s.dac.x2, s.dac.y1, s.dac.y2, s.vo.freq]

/-- The real parameter registers. -/
def parameterReals (p : Params) : List F64 :=
  [p.MasterVolume, p.PitchBend, p.Detune, p.SweepAmount, p.SweepPeriod, p.StutterTime,
    p.StutterDepth, p.EgAttack, p.EgDecay, p.EgSustain, p.EgRelease, p.NoiseInterval, p.DacFreq,
    p.DacQ]

/-- Every real register holds a value: no NaN but the canonical one. -/
def RegistersCanonical (s : State) : Bool :=
  (datapathReals s).all F64.isCanonical && (parameterReals s.par).all F64.isCanonical

/-- A reserved encoding (30_encoding.md R87). -/
def isReserved (w : CommandWord) : Bool :=
  (opField w).toNat == 0 || decide (0x0F ≤ (opField w).toNat) ||
    (((opField w).toNat == 0x08 || (opField w).toNat == 0x09) && decide (18 ≤ (idxField w).toNat))

/-- The `SET_PARAM` commands of the real parameters whose write has no side effect, each with the
register it writes (47_voice.md R213, R218 to R221, R223 to R226, R228). -/
def plainSetters : List ((F64 → Instr) × (Params → F64 → Params)) :=
  [(.setParamMasterVolume, fun p v => { p with MasterVolume := v }),
    (.setParamSweepAmount, fun p v => { p with SweepAmount := v }),
    (.setParamSweepPeriod, fun p v => { p with SweepPeriod := v }),
    (.setParamStutterTime, fun p v => { p with StutterTime := v }),
    (.setParamStutterDepth, fun p v => { p with StutterDepth := v }),
    (.setParamEgAttack, fun p v => { p with EgAttack := v }),
    (.setParamEgDecay, fun p v => { p with EgDecay := v }),
    (.setParamEgSustain, fun p v => { p with EgSustain := v }),
    (.setParamEgRelease, fun p v => { p with EgRelease := v }),
    (.setParamNoiseInterval, fun p v => { p with NoiseInterval := v })]

/-- All eighteen `SET_PARAM` commands (10_state.md R40). -/
def allSetters : List (F64 → Instr) :=
  [.setParamMasterVolume, .setParamPitchBend, .setParamDetune, .setParamOscType,
    .setParamSweepType, .setParamSweepAmount, .setParamSweepPeriod, .setParamStutterTime,
    .setParamStutterDepth, .setParamStutterWhen, .setParamEgAttack, .setParamEgDecay,
    .setParamEgSustain, .setParamEgRelease, .setParamSquareDuty, .setParamNoiseInterval,
    .setParamDacFreq, .setParamDacQ]

/-- All eighteen `GET_PARAM` commands, each with the value it returns; an enumeration code is returned
as a real (47_voice.md R231). -/
def getters : List (Instr × (Params → F64)) :=
  [(.getParamMasterVolume, fun p => p.MasterVolume),
    (.getParamPitchBend, fun p => p.PitchBend),
    (.getParamDetune, fun p => p.Detune),
    (.getParamOscType, fun p => F64.real p.OscType.code),
    (.getParamSweepType, fun p => F64.real p.SweepType.code),
    (.getParamSweepAmount, fun p => p.SweepAmount),
    (.getParamSweepPeriod, fun p => p.SweepPeriod),
    (.getParamStutterTime, fun p => p.StutterTime),
    (.getParamStutterDepth, fun p => p.StutterDepth),
    (.getParamStutterWhen, fun p => F64.real p.StutterWhen.code),
    (.getParamEgAttack, fun p => p.EgAttack),
    (.getParamEgDecay, fun p => p.EgDecay),
    (.getParamEgSustain, fun p => p.EgSustain),
    (.getParamEgRelease, fun p => p.EgRelease),
    (.getParamSquareDuty, fun p => F64.real p.SquareDuty.code.val),
    (.getParamNoiseInterval, fun p => p.NoiseInterval),
    (.getParamDacFreq, fun p => p.DacFreq),
    (.getParamDacQ, fun p => p.DacQ)]

/-- The four commands that write the wavetable (10_state.md R33). -/
def writesTable (i : Instr) : Prop :=
  (∃ idx v, i = .setWtSample idx v) ∨ (∃ tbl, i = .setWavetable tbl) ∨ i = .resetWtSine ∨
    i = .resetWtRandom

/-- A `SET_PARAM` (10_state.md R40). -/
def isSetParam (i : Instr) : Prop := ∃ c ∈ allSetters, ∃ v, i = c v

/-- The idempotent commands: the reads and writes 20_memory.md R65 calls so, and `PITCH_BEND` and
`SWEEP_RESET` (47_voice.md R203, R204). R65 excepts `NOTE_ON`, `NOTE_OFF`, `PROCESS` and
`RESET_WT_RANDOM`, whose draw is one of its inputs. By its pseudocode `NOTE_OFF` is idempotent all the same
(notes/assumptions 34); nothing is claimed of it here. -/
def isIdempotent : Instr → Bool
  | .noteOn _ _ | .noteOff _ | .process _ | .resetWtRandom => false
  | _ => true

/-- A command word with the fields its format does not use set to zero (30_encoding.md R82, R83). -/
def zeroUnused (w : CommandWord) : CommandWord :=
  let real : Data := (0#64) ++ (dataField w).extractLsb' 0 64
  match (opField w).toNat with
  | 0x01 | 0x08 => commandWord (opField w) (idxField w) real
  | 0x02 | 0x09 | 0x0D => commandWord (opField w) (idxField w) 0
  | 0x03 | 0x04 | 0x0A => commandWord (opField w) 0 real
  | 0x05 => commandWord (opField w) (idxField w) (nibbleData (nibbleOperand w))
  | 0x06 | 0x07 | 0x0B | 0x0E => commandWord (opField w) 0 0
  | 0x0C => commandWord (opField w) 0 (dataField w)
  | _ => w

/-- The rest of a tick once the sample `o` is formed: the envelope, the scaling, the DAC and the answer
(47_voice.md R210). -/
def finishTick (sr : F64) (o : Nibble) (s : State) : State :=
  let g := envProcess s.par sr s.env
  let y := dacProcess s.par sr (nibScale o g.1) s.dac
  { s with
    env := g.2
    dac := y.2
    port := { s.port with response := some (responseWord .ok ((0#64) ++ y.1.bits)) } }

/-- A stutter tick is due (45_envelope.md R173): the stutter is armed and the seconds of its next count
exceed `par.StutterTime`. -/
def stutterDue (par : Params) (sr : F64) (e : Envelope) : Bool :=
  e.stuttering && (((F64.real (e.st_count + 1 : Nat)).div sr).nz).gt par.StutterTime

/-- The five coefficient registers of the DAC (46_dac.md R190). -/
def dacCoefficients (d : Dac) : List F64 := [d.b0n, d.b1n, d.b2n, d.a1n, d.a2n]

/-- `i` stores `p` in the parameter registers, answers `OK` and changes nothing else. -/
def Stores (i : Instr) (s : State) (p : Params) : Prop :=
  exec i s = .next
    { s with par := p, port := { s.port with response := some (responseWord .ok 0) } }

/-- `i` is answered with `NOT_REPRESENTABLE` and changes nothing. -/
def Rejects (i : Instr) (s : State) : Prop :=
  exec i s = .next
    { s with port := { s.port with response := some (responseWord .notRepresentable 0) } }

end Sys2Proof.Machine
end

