-- ==== Sys2Proof/Certificates/Slice0/Obligations.lean ====
section
/-! DEFINITION. The statements for the provers. Each docstring names the rules of spec/ it
formalises; a statement that rests on a choice of the model, or on an inference the spec marks as
its own, says so. -/

open Sys2Proof Sys2Proof.Machine

/-! ## Encoding -/

/-- Command words written out in the spec (30_encoding.md R97, 95_test_vectors.md V70) decode to the
commands they stand for, with unused bits ignored. -/
def Obligations.WorkedWordsDecode : Prop :=
  decode 0x014500000000000000003FF0000000000000 = .ok (.noteOn 69 F64.one) ∧
  decode 0x080E00000000000000004000000000000000 = .ok (.setParamSquareDuty (F64.real 2)) ∧
  decode 0x0A00000000000000000040E5888000000000 = .ok (.process (F64.real 44100)) ∧
  decode 0x051F00000000000000000000000000000008 = .ok (.setWtSample 31 (BitVec.ofInt 4 (-8))) ∧
  decode 0x090E00000000000000000000000000000000 = .ok .getParamSquareDuty ∧
  decode 0x0245DEADBEEFDEADBEEF0123456789ABCDEF = .ok (.noteOff 69) ∧
  decode 0x0EFFFFFFFFFFFFFFFFFFFFFFFFFFFFFFFFFF = .ok .getStatus

/-- Decoding the word of any well-formed command gives the command back, every operand at every value
(30_encoding.md R82, R83, R85; 20_memory.md R60). -/
def Obligations.DecodeEncodeRoundTrip : Prop :=
  ∀ i : Instr, i.wf = true → decode (encode i) = .ok i

/-- 30_encoding.md R86: every word is exactly one of illegal (the reserved encodings of R87) and a
command, whose own word has the opcode of the word decoded. That the command is well formed, a NaN
operand of any pattern being the one NaN, is the model's choice (notes/assumptions 9, 19). -/
def Obligations.DecodeIsTotal : Prop :=
  ∀ w : CommandWord,
    (isReserved w = true ∧ ∃ e, decode w = .error e) ∨
    (isReserved w = false ∧
      ∃ i, decode w = .ok i ∧ i.wf = true ∧ opField (encode i) = opField w)

/-- 60_exceptions.md R251 (the spec's decision D8): a reserved opcode or parameter id is answered with
`ILLEGAL_COMMAND` and `rdata` = 0 and changes no state; no other word is answered so. -/
def Obligations.IllegalWordsChangeNothing : Prop :=
  ∀ (s : State) (w : CommandWord) (rest : List CommandWord), s.port.commands = w :: rest →
    (isReserved w = true →
      ∃ t, step s = .next t ∧ SameBlock s t ∧ t.draws = s.draws ∧
        t.port = { commands := rest, response := some (responseWord .illegalCommand 0) }) ∧
    (isReserved w = false → ∀ t, step s = .next t →
      ∃ r, t.port.response = some r ∧ statusField r ≠ 0x02)

/-- 30_encoding.md R82: a word with its unused fields set to zero decodes as the word does, and the
encoder writes zero in them. -/
def Obligations.UnusedFieldsAreIgnored : Prop :=
  (∀ w : CommandWord, decode (zeroUnused w) = decode w) ∧
  (∀ i : Instr, zeroUnused (encode i) = encode i)

/-- A step executes the first command on the port (30_encoding.md R80, 20_memory.md R67). That the step
with no command changes nothing is the model's choice (notes/assumptions 1). -/
def Obligations.StepRunsTheDecodedCommand : Prop :=
  (∀ (s : State) (w : CommandWord) (rest : List CommandWord) (i : Instr),
    s.port.commands = w :: rest → decode w = .ok i →
      step s = exec i { s with port := { s.port with commands := rest } }) ∧
  (∀ s : State, s.port.commands = [] → step s = .next s)

/-! ## Events -/

/-- 47_voice.md R201 with 45_envelope.md R164, R163 and 44_sweep.md R153: what `NOTE_ON` writes, what it
leaves, and that a NaN or infinite velocity yields gain 0. Rests on the spec's decisions D20, D21,
D22, D26; that a NaN depth does not arm is the reading of notes/assumptions 15. -/
def Obligations.NoteOnSeedsAndTriggers : Prop :=
  ∀ (note : Byte) (velocity : F64) (s : State), ∃ t,
    exec (.noteOn note velocity) s = .next t ∧
    t.vo.freq = pitch note ∧
    t.sq = { s.sq with frequency := pitch note } ∧
    t.wt = { s.wt with frequency := pitch note } ∧
    t.sw = { shadow_freq := pitch note, timer := F64.zero, clipped := false } ∧
    t.env.state = .attack ∧ t.env.elapsed = 0 ∧ t.env.value = F64.zero ∧
    t.env.velocity = velocity ∧ t.env.note = note ∧
    t.env.note_valid = true ∧ t.env.note_on = true ∧
    t.env.last_state_value =
      (if s.env.state = .attack ∨ s.env.state = .decay ∨ s.env.state = .sustain
        then s.env.value else s.env.last_state_value) ∧
    (s.par.StutterWhen = .noteOn →
      t.env.stuttering = (!s.par.StutterDepth.isNaN && !s.par.StutterDepth.isZero) ∧
        t.env.st_count = 0 ∧
        t.env.stutter_velocity = F64.one) ∧
    (s.par.StutterWhen = .noteOff →
      t.env.stuttering = false ∧ t.env.st_count = s.env.st_count ∧
        t.env.stutter_velocity = s.env.stutter_velocity) ∧
    t.no = s.no ∧ t.dac = s.dac ∧ t.par = s.par ∧ t.draws = s.draws ∧ Answered s t .ok 0 ∧
    (velocity.isFinite = false → ∀ par sr, envGain (envAdvance par sr t.env) = F64.zero)

/-- 47_voice.md R202 with 45_envelope.md R165, R163: `NOTE_OFF` releases a sounding envelope, leaves
Release and Off as they are, and changes envelope and stutter state only. Rests on the spec's
decisions D21, D22; that a NaN depth does not arm is the reading of notes/assumptions 15. -/
def Obligations.NoteOffReleases : Prop :=
  ∀ (note : Byte) (s : State), ∃ t,
    exec (.noteOff note) s = .next t ∧
    ((s.env.state = .attack ∨ s.env.state = .decay ∨ s.env.state = .sustain) →
      t.env.state = .release ∧ t.env.elapsed = 0 ∧ t.env.last_state_value = s.env.value) ∧
    ((s.env.state = .release ∨ s.env.state = .off) →
      t.env.state = s.env.state ∧ t.env.elapsed = s.env.elapsed ∧
        t.env.last_state_value = s.env.last_state_value) ∧
    t.env.note_on = false ∧ t.env.value = s.env.value ∧ t.env.velocity = s.env.velocity ∧
    t.env.note = s.env.note ∧ t.env.note_valid = s.env.note_valid ∧
    (s.par.StutterWhen = .noteOff →
      t.env.stuttering = (!s.par.StutterDepth.isNaN && !s.par.StutterDepth.isZero) ∧
        t.env.st_count = 0 ∧
        t.env.stutter_velocity = F64.one) ∧
    (s.par.StutterWhen = .noteOn →
      t.env.stuttering = false ∧ t.env.st_count = s.env.st_count ∧
        t.env.stutter_velocity = s.env.stutter_velocity) ∧
    t.sq = s.sq ∧ t.no = s.no ∧ t.wt = s.wt ∧ t.sw = s.sw ∧ t.dac = s.dac ∧ t.vo = s.vo ∧
    t.par = s.par ∧ t.draws = s.draws ∧ Answered s t .ok 0

/-- 47_voice.md R203 (the spec's decision D13) and R204 with 44_sweep.md R153 (D16, D26): `PITCH_BEND`
stores its ratio and nothing else; `SWEEP_RESET` reseeds the sweep, without a clip check, and
nothing else. -/
def Obligations.PitchBendAndSweepReset : Prop :=
  (∀ (ratio : F64) (s : State), exec (.pitchBend ratio) s = .next
    { s with
      wt := { s.wt with pitch_ratio := ratio }
      port := { s.port with response := some (responseWord .ok 0) } }) ∧
  (∀ (freq : F64) (s : State), exec (.sweepReset freq) s = .next
    { s with
      sw := { shadow_freq := freq, timer := F64.zero, clipped := false }
      port := { s.port with response := some (responseWord .ok 0) } })

/-- 00_scope.md R11: the four named properties of the configuration functions, and the pattern of
`PI`. That `P_TRIG_ZERO` holds at `-0.0` as at `0.0` is the model's reading (notes/assumptions 10). -/
def Obligations.CfgNamedProperties : Prop :=
  (∀ k : Int, -1022 ≤ k → k ≤ 1023 → CFG.exp2 (F64.real k) = F64.pow2 k) ∧
  (∀ x : F64, x.ge (F64.real (-1022)) = true → x.le (F64.real 1023) = true →
    (CFG.exp2 x).gt F64.zero = true ∧ (CFG.exp2 x).isFinite = true) ∧
  (∀ x : F64, x.isFinite = true →
    (CFG.sin x).ge (F64.real (-1)) = true ∧ (CFG.sin x).le F64.one = true ∧
    (CFG.cos x).ge (F64.real (-1)) = true ∧ (CFG.cos x).le F64.one = true) ∧
  (∀ x : F64, x.isZero = true →
    (CFG.sin x).eq F64.zero = true ∧ (CFG.cos x).eq F64.one = true) ∧
  F64.pi.bits = 0x400921FB54442D18

/-! ## The wavetable -/

/-- 43_wavetable.md R134: `SET_WT_SAMPLE` writes the one entry, an index of 32 or more is ignored and
answered `OK`, nothing else changes, and a second execution leaves what the first did. -/
def Obligations.SetWtSampleWritesOneEntry : Prop :=
  ∀ (idx : Byte) (value : Nibble) (s : State), ∃ t,
    exec (.setWtSample idx value) s = .next t ∧
    (∀ (j : Nat) (hj : j < WT_LEN),
      t.wt.table[j] = if idx.toNat = j then value else s.wt.table[j]) ∧
    (32 ≤ idx.toNat → t.wt.table = s.wt.table) ∧
    t.wt = { s.wt with table := t.wt.table } ∧
    t.sq = s.sq ∧ t.no = s.no ∧ t.sw = s.sw ∧ t.env = s.env ∧ t.dac = s.dac ∧ t.vo = s.vo ∧
    t.par = s.par ∧ t.draws = s.draws ∧ Answered s t .ok 0 ∧
    ∃ u, exec (.setWtSample idx value) t = .next u ∧ SameBlock t u

/-- 43_wavetable.md R135 and R138: `SET_WAVETABLE` replaces all 32 entries and nothing else, and a
second execution leaves what the first did; `GET_WAVETABLE` changes nothing and returns entry `i` in
bits [4i+3:4i]. -/
def Obligations.WavetableSetAndGet : Prop :=
  (∀ (tbl : Vector Nibble WT_LEN) (s : State), ∃ t,
    exec (.setWavetable tbl) s = .next t ∧
    (∀ (i : Nat) (hi : i < WT_LEN), t.wt.table[i] = tbl[i]) ∧
    t.wt = { s.wt with table := t.wt.table } ∧
    t.sq = s.sq ∧ t.no = s.no ∧ t.sw = s.sw ∧ t.env = s.env ∧ t.dac = s.dac ∧ t.vo = s.vo ∧
    t.par = s.par ∧ t.draws = s.draws ∧ Answered s t .ok 0 ∧
    ∃ u, exec (.setWavetable tbl) t = .next u ∧ SameBlock t u) ∧
  (∀ s : State, ∃ u d,
    exec .getWavetable s = .next u ∧ SameBlock s u ∧ u.draws = s.draws ∧ Answered s u .ok d ∧
    ∀ (i : Nat) (hi : i < WT_LEN), d.extractLsb' (4 * i) 4 = s.wt.table[i])

/-- 43_wavetable.md R136: `RESET_WT_SINE` writes `fromFloat` of the sine at `2π·i/32` to every entry `i`
and nothing else; by `P_TRIG_ZERO` entry 0 is level 0. The sample points are the spec's decision
D15. -/
def Obligations.ResetSineFillsTheTable : Prop :=
  ∀ s : State, ∃ t,
    exec .resetWtSine s = .next t ∧
    (∀ (i : Nat) (hi : i < WT_LEN), ∃ h,
      t.wt.table[i] = fromFloat
        (CFG.sin ((((F64.real 2).mul F64.pi).mul (F64.real i)).div (F64.real 32))) h) ∧
    level t.wt.table[0] = 0 ∧
    t.wt = { s.wt with table := t.wt.table } ∧
    t.sq = s.sq ∧ t.no = s.no ∧ t.sw = s.sw ∧ t.env = s.env ∧ t.dac = s.dac ∧ t.vo = s.vo ∧
    t.par = s.par ∧ t.draws = s.draws ∧ Answered s t .ok 0

/-- 43_wavetable.md R137: the table after `RESET_WT_RANDOM` is the draw, a free value
(notes/assumptions 8), and nothing else of the block changes. That a counter numbers the draws and
moves on by one is the model's choice (notes/assumptions 8); two draws may be equal. -/
def Obligations.ResetRandomDrawsATable : Prop :=
  ∀ s : State, ∃ t,
    exec .resetWtRandom s = .next t ∧
    t.wt = { s.wt with table := Config.drawTable s.draws } ∧ t.draws = s.draws + 1 ∧
    t.sq = s.sq ∧ t.no = s.no ∧ t.sw = s.sw ∧ t.env = s.env ∧ t.dac = s.dac ∧ t.vo = s.vo ∧
    t.par = s.par ∧ Answered s t .ok 0

/-! ## Parameters -/

/-- 47_voice.md R211, R213, R218 to R221, R223 to R226, R228: the real parameters whose write has no
side effect (MasterVolume, SweepAmount, SweepPeriod, StutterTime, StutterDepth, EgAttack, EgDecay,
EgSustain, EgRelease, NoiseInterval) store any value unchanged and nothing else changes. -/
def Obligations.RealParametersStoreAnyValue : Prop :=
  ∀ c ∈ plainSetters, ∀ (v : F64) (s : State), Stores (c.1 v) s (c.2 s.par v)

/-- 47_voice.md R212, R214, R215 (the spec's decision D13): a write of `PitchBend` or `Detune` stores
the value and sets the pitch ratio to `2^(((bend + detune) * 100) / 1200)`, and nothing else; 12
semitones give 2.0, 0 give 1.0, -12 give 0.5. -/
def Obligations.SemitoneOffsetsSetThePitchRatio : Prop :=
  (∀ (v : F64) (s : State), exec (.setParamPitchBend v) s = .next
    { s with
      par := { s.par with PitchBend := v }
      wt := { s.wt with
        pitch_ratio :=
          CFG.exp2 (((v.add s.par.Detune).mul (F64.real 100)).div (F64.real 1200)) }
      port := { s.port with response := some (responseWord .ok 0) } }) ∧
  (∀ (v : F64) (s : State), exec (.setParamDetune v) s = .next
    { s with
      par := { s.par with Detune := v }
      wt := { s.wt with
        pitch_ratio :=
          CFG.exp2 (((s.par.PitchBend.add v).mul (F64.real 100)).div (F64.real 1200)) }
      port := { s.port with response := some (responseWord .ok 0) } }) ∧
  (∀ (n : Int) (r : F64) (s : State),
    ((n, r) = (12, F64.real 2) ∨ (n, r) = (0, F64.one) ∨ (n, r) = (-12, F64.one.div (F64.real 2))) →
    s.par.Detune = F64.zero →
      ∃ t, exec (.setParamPitchBend (F64.real n)) s = .next t ∧ t.wt.pitch_ratio = r)

/-- 47_voice.md R229, R230: a write of `DacFreq` or `DacQ` stores the value and sets `dac.dirty`,
whatever the value, and nothing else. That the next `PROCESS` recomputes the coefficients follows from
46_dac.md R191 and R194, as R195 derives it for `DacFreq`. -/
def Obligations.DacParametersSetDirty : Prop :=
  (∀ (v : F64) (s : State), exec (.setParamDacFreq v) s = .next
    { s with
      par := { s.par with DacFreq := v }
      dac := { s.dac with dirty := true }
      port := { s.port with response := some (responseWord .ok 0) } }) ∧
  (∀ (v : F64) (s : State), exec (.setParamDacQ v) s = .next
    { s with
      par := { s.par with DacQ := v }
      dac := { s.dac with dirty := true }
      port := { s.port with response := some (responseWord .ok 0) } }) ∧
  (∀ (i : Instr) (v sr : F64) (s t u : State), (i = .setParamDacFreq v ∨ i = .setParamDacQ v) →
    exec i s = .next t → exec (.process sr) t = .next u →
      dacCoefficients u.dac = dacCoefficients (dacRecompute t.par sr t.dac))

/-- 60_exceptions.md R250 (the spec's decision D9) with 47_voice.md R211, R216, R217, R222, R227: each
enumeration register stores exactly its codes, answers any other value with `NOT_REPRESENTABLE`,
and no other command is answered so. -/
def Obligations.EnumerationsStoreOnlyTheirCodes : Prop :=
  (∀ (v : F64) (s : State),
    (v.eq (F64.real 0) = true → Stores (.setParamOscType v) s { s.par with OscType := .square }) ∧
    (v.eq (F64.real 1) = true → Stores (.setParamOscType v) s { s.par with OscType := .noise }) ∧
    (v.eq (F64.real 2) = true → Stores (.setParamOscType v) s { s.par with OscType := .wavetable }) ∧
    ((∀ k : Fin 3, v.eq (F64.real k.val) = false) → Rejects (.setParamOscType v) s)) ∧
  (∀ (v : F64) (s : State),
    (v.eq (F64.real 0) = true → Stores (.setParamSweepType v) s { s.par with SweepType := .none }) ∧
    (v.eq (F64.real 1) = true → Stores (.setParamSweepType v) s { s.par with SweepType := .up }) ∧
    (v.eq (F64.real 2) = true → Stores (.setParamSweepType v) s { s.par with SweepType := .down }) ∧
    (v.eq (F64.real 3) = true →
      Stores (.setParamSweepType v) s { s.par with SweepType := .triangle }) ∧
    ((∀ k : Fin 4, v.eq (F64.real k.val) = false) → Rejects (.setParamSweepType v) s)) ∧
  (∀ (v : F64) (s : State),
    (v.eq (F64.real 0) = true →
      Stores (.setParamStutterWhen v) s { s.par with StutterWhen := .noteOn }) ∧
    (v.eq (F64.real 1) = true →
      Stores (.setParamStutterWhen v) s { s.par with StutterWhen := .noteOff }) ∧
    ((∀ k : Fin 2, v.eq (F64.real k.val) = false) → Rejects (.setParamStutterWhen v) s)) ∧
  (∀ (v : F64) (s : State),
    (v.eq (F64.real 0) = true →
      Stores (.setParamSquareDuty v) s { s.par with SquareDuty := .d12_5 }) ∧
    (v.eq (F64.real 1) = true → Stores (.setParamSquareDuty v) s { s.par with SquareDuty := .d25 }) ∧
    (v.eq (F64.real 2) = true → Stores (.setParamSquareDuty v) s { s.par with SquareDuty := .d50 }) ∧
    (v.eq (F64.real 3) = true → Stores (.setParamSquareDuty v) s { s.par with SquareDuty := .d75 }) ∧
    ((∀ k : Fin 4, v.eq (F64.real k.val) = false) → Rejects (.setParamSquareDuty v) s)) ∧
  (∀ (i : Instr) (s t : State) (r : ResponseWord),
    exec i s = .next t → t.port.response = some r → statusField r = 0x01 →
      ∃ v, i = .setParamOscType v ∨ i = .setParamSweepType v ∨ i = .setParamStutterWhen v ∨
        i = .setParamSquareDuty v)

/-- 47_voice.md R231 with 10_state.md R40: `GET_PARAM id` returns the register of the id, an
enumeration code as a real, and changes nothing; of a stored NaN it returns some NaN pattern
(93_implementation_defined.md U9); an id of 18 or more is illegal. -/
def Obligations.GetParamReturnsTheRegister : Prop :=
  (∀ (k : Nat) (c : Instr × (Params → F64)) (d : Data), getters[k]? = some c →
    decode (commandWord 0x09 (BitVec.ofNat 8 k) d) = .ok c.1) ∧
  (∀ (id : Byte) (d : Data), 18 ≤ id.toNat → ∃ e, decode (commandWord 0x09 id d) = .error e) ∧
  (∀ c ∈ getters, ∀ s : State, ∃ t, exec c.1 s = .next t ∧ SameBlock s t ∧
    ((c.2 s.par).isNaN = false →
      t.draws = s.draws ∧ Answered s t .ok ((0#64) ++ (c.2 s.par).bits)) ∧
    ((c.2 s.par).isNaN = true →
      ∃ b : BitVec 64, (F64.mk b).isNaN = true ∧ Answered s t .ok ((0#64) ++ b)))

/-- 47_voice.md R231, R211: after a `SET_PARAM` that was answered `OK`, `GET_PARAM` of the same id
returns the value bit for bit when it is no NaN; `-0.0` written to an enumeration reads as its
code 0. -/
def Obligations.SetThenGetReturnsTheValue : Prop :=
  ∀ (k : Nat) (set : F64 → Instr) (get : Instr × (Params → F64)) (v : F64) (s t : State),
    allSetters[k]? = some set → getters[k]? = some get → v.isNaN = false →
    exec (set v) s = .next t → t.port.response = some (responseWord .ok 0) →
      ∃ u, exec get.1 t = .next u ∧ SameBlock t u ∧
        Answered t u .ok ((0#64) ++
          (if (k = 3 ∨ k = 4 ∨ k = 9 ∨ k = 14) ∧ v = F64.negZero then F64.zero else v).bits)

/-- 10_state.md R33, R40 and 20_memory.md R65: only the four table commands change the wavetable, and
only `SET_PARAM` changes a parameter register. -/
def Obligations.OnlyTheirCommandsWriteTableAndParameters : Prop :=
  ∀ (i : Instr) (s t : State), exec i s = .next t →
    (t.wt.table ≠ s.wt.table → writesTable i) ∧ (t.par ≠ s.par → isSetParam i)

/-- A command other than `NOTE_ON`, `NOTE_OFF`, `PROCESS` and `RESET_WT_RANDOM`, executed a second time
with the same operands, completes and leaves the block as the first execution left it. For the
reads, the table writes and `SET_PARAM` this is 20_memory.md R65; for `PITCH_BEND` and `SWEEP_RESET`
it follows from 47_voice.md R203 and R204 with 44_sweep.md R153. -/
def Obligations.IdempotentCommands : Prop :=
  ∀ (i : Instr) (s t : State), isIdempotent i = true → exec i s = .next t →
    ∃ u, exec i t = .next u ∧ SameBlock t u

/-! ## The port -/

/-- A command that completes is answered with one of the three status codes (30_encoding.md R84); an
error has `rdata` = 0 and changes nothing of the block (60_exceptions.md R252). That its word is
taken from a list on the port (30_encoding.md R80) is the model's choice (notes/assumptions 1). -/
def Obligations.CommandsAreAnsweredAndErrorsArePrecise : Prop :=
  ∀ (s t : State) (w : CommandWord) (rest : List CommandWord), s.port.commands = w :: rest →
    step s = .next t →
      t.port.commands = rest ∧
      ∃ r, t.port.response = some r ∧
        (statusField r = 0x00 ∨ statusField r = 0x01 ∨ statusField r = 0x02) ∧
        (statusField r ≠ 0x00 → rdataField r = 0 ∧ SameBlock s t ∧ t.draws = s.draws)

/-- 47_voice.md R233 (the spec's decision D31): the fields of the `GET_STATUS` result; nothing
changes. -/
def Obligations.GetStatusLayout : Prop :=
  ∀ s : State, ∃ t d, exec .getStatus s = .next t ∧ SameBlock s t ∧ t.draws = s.draws ∧
    Answered s t .ok d ∧
    d.extractLsb' 0 3 = (match s.env.state with
      | .off => 0#3 | .attack => 1#3 | .decay => 2#3 | .sustain => 3#3 | .release => 4#3) ∧
    d.getLsbD 3 = s.env.note_on ∧ d.getLsbD 4 = s.env.stuttering ∧
    d.getLsbD 5 = s.sw.clipped ∧ d.getLsbD 6 = s.dac.dirty ∧ d.getLsbD 7 = false ∧
    d.extractLsb' 8 8 = s.env.note ∧ d.getLsbD 16 = s.env.note_valid ∧
    d.extractLsb' 17 111 = 0

/-- 45_envelope.md R176 (the spec's decision D21): the answer of `QUERY_ASSIGNABLE` in bit 0, all other
bits 0; nothing changes. -/
def Obligations.QueryAssignable : Prop :=
  ∀ (note : Byte) (s : State), ∃ t d, exec (.queryAssignable note) s = .next t ∧ SameBlock s t ∧
    t.draws = s.draws ∧ Answered s t .ok d ∧ (d = 0 ∨ d = 1) ∧
    (s.par.StutterWhen = .noteOn →
      (d = 1 ↔ (s.env.note_valid = true ∧ note = s.env.note) ∨ s.env.note_on = false)) ∧
    (s.par.StutterWhen = .noteOff →
      (d = 1 ↔ (s.env.note_valid = true ∧ note = s.env.note) ∨
        (s.env.state = .release ∨ s.env.state = .off) ∨ s.env.stuttering = true))

/-! ## The sample tick -/

/-- 47_voice.md R235 (the spec's decision D29): `PROCESS` is refused exactly when its sample rate is
NaN, infinite, zero or negative, and no other command is ever refused. -/
def Obligations.OnlyBadSampleRatesAreRefused : Prop :=
  (∀ (sr : F64) (s : State), exec (.process sr) s = .refused .sampleRateNotFinitePositive ↔
    (sr.isNaN = true ∨ sr.isInf = true ∨ sr.le F64.zero = true)) ∧
  (∀ (i : Instr) (s : State) (r : Refusal), exec i s = .refused r →
    r = .sampleRateNotFinitePositive ∧ ∃ sr, i = .process sr)

/-- 47_voice.md R210, 44_sweep.md R154 (the spec's decision D19): while the sweep is clipped a tick
feeds `NIB_ZERO` to the DAC, steps the envelope and the DAC and nothing else, and answers the DAC's
output. -/
def Obligations.ClippedTick : Prop :=
  ∀ (sr : F64) (s : State), acceptedRate sr = true → s.sw.clipped = true →
    exec (.process sr) s = .next
      { s with
        env := (envProcess s.par sr s.env).2
        dac := (dacProcess s.par sr NIB_ZERO s.dac).2
        port := { s.port with
          response := some (responseWord .ok
            ((0#64) ++ (dacProcess s.par sr NIB_ZERO s.dac).1.bits)) } }

/-- 47_voice.md R210, 41_square.md R115: an unclipped tick with the square selected steps the sweep,
the running frequency and the square, whose output is formed from the phase before the advance,
then the envelope and the DAC; the noise and the wavetable keep all their registers (the spec's
decision D26). -/
def Obligations.SquareTick : Prop :=
  ∀ (sr : F64) (s : State), acceptedRate sr = true → s.sw.clipped = false →
    s.par.OscType = .square →
    exec (.process sr) s = .next
      (finishTick sr (pulse s.sq.phase s.par.SquareDuty)
        { s with
          sw := (swProcess s.par sr s.sw).2
          vo := { freq := s.vo.freq.add (swProcess s.par sr s.sw).1 }
          sq := sqAdvance Config.sqBend s.wt.pitch_ratio sr
            { s.sq with frequency := s.vo.freq.add (swProcess s.par sr s.sw).1 } })

/-- 47_voice.md R210, 42_noise.md R121: an unclipped tick with the noise selected; the sample is the
table entry at the index after the step, and the running frequency still takes the delta (the
spec's decision D14). -/
def Obligations.NoiseTick : Prop :=
  ∀ (sr : F64) (s : State), acceptedRate sr = true → s.sw.clipped = false →
    s.par.OscType = .noise →
    exec (.process sr) s = .next
      (finishTick sr (Config.noiseTable (noAdvance s.par.NoiseInterval sr s.no).index)
        { s with
          sw := (swProcess s.par sr s.sw).2
          vo := { freq := s.vo.freq.add (swProcess s.par sr s.sw).1 }
          no := noAdvance s.par.NoiseInterval sr s.no })

/-- 47_voice.md R210, 43_wavetable.md R131, R133: an unclipped tick with the wavetable selected; the
sample is the entry at the floor of the phase before the advance. The phase is in range in every
state a run reaches (Obligations.PhasesStayInRange). -/
def Obligations.WavetableTick : Prop :=
  ∀ (sr : F64) (s : State), acceptedRate sr = true → s.sw.clipped = false →
    s.par.OscType = .wavetable → inRange F64.zero wtLen s.wt.phase = true →
    ∃ h : s.wt.phase.floor.toNat < WT_LEN,
    exec (.process sr) s = .next
      (finishTick sr s.wt.table[s.wt.phase.floor.toNat]
        { s with
          sw := (swProcess s.par sr s.sw).2
          vo := { freq := s.vo.freq.add (swProcess s.par sr s.sw).1 }
          wt := wtAdvance sr { s.wt with frequency := s.vo.freq.add (swProcess s.par sr s.sw).1 } })

/-- 47_voice.md R236: no command but `PROCESS` advances a phase, a counter or a timer, or touches the
DAC's coefficients and history; `NOTE_ON`, `NOTE_OFF` and `SWEEP_RESET` may clear a counter. -/
def Obligations.OnlyProcessAdvancesTime : Prop :=
  ∀ (i : Instr) (s t : State), exec i s = .next t → (∀ sr, i ≠ .process sr) →
    t.sq.phase = s.sq.phase ∧ t.wt.phase = s.wt.phase ∧ t.no = s.no ∧
    (t.sw.timer = s.sw.timer ∨ t.sw.timer = F64.zero) ∧
    (t.env.elapsed = s.env.elapsed ∨ t.env.elapsed = 0) ∧
    (t.env.st_count = s.env.st_count ∨ t.env.st_count = 0) ∧
    t.dac = { s.dac with dirty := t.dac.dirty }

/-! ## The oscillators -/

/-- 41_square.md R111, R112, R114: the pulse is low below the duty ratio and high from it on, and the
phase advances by the increment, reduced by its floor, as R112's pseudocode rounds it
(notes/assumptions 27); a sum that is not finite clears it. -/
def Obligations.SquareUnit : Prop :=
  (∀ (phase : F64) (d : SquareDuty),
    (phase.lt K.DUTY[d.code.val] = true → level (pulse phase d) = -8) ∧
    (phase.lt K.DUTY[d.code.val] = false → level (pulse phase d) = 7)) ∧
  (∀ (bend : Bool) (ratio sr : F64) (sq : Square) (t : F64),
    t = sq.phase.add (if bend then (sq.frequency.mul ratio).div sr else sq.frequency.div sr) →
      (sqAdvance bend ratio sr sq).frequency = sq.frequency ∧
      inRange F64.zero F64.one (sqAdvance bend ratio sr sq).phase = true ∧
      (t.isFinite = false → (sqAdvance bend ratio sr sq).phase = F64.zero) ∧
      (t.isFinite = true → inRange F64.zero F64.one (t.sub (F64.real t.floor)) = true →
        (sqAdvance bend ratio sr sq).phase = t.sub (F64.real t.floor)) ∧
      (t.isFinite = true → inRange F64.zero F64.one (t.sub (F64.real t.floor)) = false →
        (sqAdvance bend ratio sr sq).phase = F64.zero))

/-- 41_square.md R113: the pitch of every note is `440 * CFG.exp2((note - 69) / 12)`, and by
`P_EXP2_INT` notes that differ from 69 by a multiple of 12 give exact octaves of 440 Hz. -/
def Obligations.PitchOctavesAreExact : Prop :=
  (∀ note : Byte, pitch note =
    (F64.real 440).mul (CFG.exp2 ((F64.real ((note.toNat : Int) - 69)).div (F64.real 12)))) ∧
  (∀ (note : Byte) (k : Int), (note.toNat : Int) = 69 + 12 * k →
    pitch note = (F64.real 440).mul (F64.pow2 k))

/-- 42_noise.md R121 (the spec's decisions D11, D14): the counter takes `1/sr`; when it reaches the
interval the index moves on by one, modulo 8192, and the counter is cleared. With a NaN or a +inf
interval the index never moves, though the counter be +inf, and with an interval of -inf it moves on every
tick; at each infinity sentences of the spec disagree, and these are the model's choices
(notes/assumptions 26). -/
def Obligations.NoiseUnit : Prop :=
  ∀ (interval sr : F64) (no : Noise) (c q : F64) (i : Fin NOISE_LEN),
    c = no.sec_counter.add (F64.one.div sr) → q = interval.div (F64.real 1000) →
    i.val = (if no.index.val = 8191 then 0 else no.index.val + 1) →
      (c.ge q = true → (q.isInf = false ∨ q.sign = true) →
        noAdvance interval sr no = { sec_counter := F64.zero, index := i }) ∧
      (c.ge q = false → noAdvance interval sr no = { no with sec_counter := c }) ∧
      ((interval.isNaN = true ∨ interval = F64.inf false) →
        noAdvance interval sr no = { no with sec_counter := c }) ∧
      (interval = F64.inf true → c.isNaN = false →
        noAdvance interval sr no = { sec_counter := F64.zero, index := i })

/-- 43_wavetable.md R131: with the phase in [0, 32) the look-up is the entry at its floor, an index in
[0, 31], without interpolation. R132 (the spec's decisions D15, D34): the phase advances by the
increment, reduced by the floored modulus 32, as its pseudocode rounds it (notes/assumptions 27); a
sum that is not finite clears it; it stays in [0, 32), and no other register of the unit changes. -/
def Obligations.WavetableLookupReadsTheEntry : Prop :=
  (∀ wt : Wavetable, inRange F64.zero wtLen wt.phase = true →
    0 ≤ wt.phase.floor ∧ wt.phase.floor ≤ 31 ∧
    ∃ h : wt.phase.floor.toNat < WT_LEN, wtLookup wt = some wt.table[wt.phase.floor.toNat]) ∧
  (∀ (sr : F64) (wt : Wavetable) (t p : F64),
    t = wt.phase.add ((((wt.frequency.mul wt.pitch_ratio).div sr).mul (F64.real 32))) →
    p = t.sub ((F64.real 32).mul (F64.real (t.div (F64.real 32)).floor)) →
      inRange F64.zero (F64.real 32) (wtAdvance sr wt).phase = true ∧
      wtAdvance sr wt = { wt with phase := (wtAdvance sr wt).phase } ∧
      (t.isFinite = false → (wtAdvance sr wt).phase = F64.zero) ∧
      (t.isFinite = true → inRange F64.zero (F64.real 32) p = true →
        (wtAdvance sr wt).phase = p) ∧
      (t.isFinite = true → inRange F64.zero (F64.real 32) p = false →
        (wtAdvance sr wt).phase = F64.zero))

/-! ## The sweep -/

/-- 44_sweep.md R147: mode None outputs 0 and changes nothing. -/
def Obligations.SweepNoneOutputsZero : Prop :=
  ∀ (par : Params) (sr : F64) (sw : Sweep), par.SweepType = .none →
    swProcess par sr sw = (F64.zero, sw)

/-- 44_sweep.md R146 (the spec's decision D16): with an amount or a period of zero, of either sign, a
tick leaves the sweep alone in every mode and delivers no delta. -/
def Obligations.SweepGuard : Prop :=
  ∀ (sr : F64) (s t : State),
    (s.par.SweepAmount.isZero = true ∨ s.par.SweepPeriod.isZero = true) →
    exec (.process sr) s = .next t →
      t.sw = s.sw ∧ (t.vo.freq = s.vo.freq ∨ t.vo.freq = s.vo.freq.add F64.zero)

/-- 44_sweep.md R148, R152 (the spec's decisions D11, D16, D19): modes Up and Down. That a NaN amount
gives the delta 0 is a sentence of R148 which its pseudocode does not bear out, and following it is
the model's choice (notes/assumptions 24); elsewhere the pseudocode stands (notes/assumptions 32). -/
def Obligations.SweepUpAndDown : Prop :=
  ∀ (up : Bool) (par : Params) (sr : F64) (sw : Sweep) (period timer d f : F64),
    par.SweepAmount.eq F64.zero = false → par.SweepPeriod.eq F64.zero = false →
    par.SweepType = (if up then .up else .down) →
    period = (par.SweepPeriod.mul (F64.one.div (F64.real 128))).nz →
    timer = (sw.timer.add (F64.one.div sr).nz).nz →
    d = (if par.SweepAmount.isNaN then F64.zero
      else (sw.shadow_freq.mul (CFG.exp2 (par.SweepAmount.sub K.SWEEP_BIAS).nz).nz).nz) →
    f = (if up then (sw.shadow_freq.add d).nz else (sw.shadow_freq.sub d).nz) →
      (timer.ge period = false → swProcess par sr sw = (F64.zero, { sw with timer := timer })) ∧
      (timer.ge period = true → swProcess par sr sw =
        (if up then d else d.neg.nz,
          { shadow_freq := f, timer := F64.zero
            clipped := sw.clipped || f.lt (F64.real 10) || f.gt (F64.real 10000) }))

/-- 44_sweep.md R149, R150, R152 (the spec's decisions D17, D18, D19): mode Triangle, for whatever
`CFG.tri_delta` is; the delta is finite and flushed. Where `nz` flushes the period or the quarter, the
pseudocode stands (notes/assumptions 32). -/
def Obligations.SweepTriangle : Prop :=
  ∀ (par : Params) (sr : F64) (sw : Sweep) (period q timer d r f : F64),
    par.SweepAmount.eq F64.zero = false → par.SweepPeriod.eq F64.zero = false →
    par.SweepType = .triangle →
    period = (par.SweepPeriod.mul (F64.one.div (F64.real 128))).nz →
    q = (period.div (F64.real 4)).nz →
    timer = (sw.timer.add (F64.one.div sr).nz).nz →
    d = CFG.triDelta sw.shadow_freq par.SweepAmount par.SweepPeriod sr →
    r = (if sw.timer.lt q = false ∧ sw.timer.lt (q.mul (F64.real 3)).nz = true then d.neg.nz
      else d) →
    f = (sw.shadow_freq.add r).nz →
      d.isFinite = true ∧ d.nz = d ∧
      swProcess par sr sw =
        (r, { shadow_freq := f
              timer := if timer.ge period then F64.zero else timer
              clipped := sw.clipped || f.lt (F64.real 10) || f.gt (F64.real 10000) })

/-- 44_sweep.md R152, 70_reset_and_hazards.md R287, 48_control_access_system.md R241: the clip latch is
cleared only by `NOTE_ON` and `SWEEP_RESET` and set only by a `PROCESS` that leaves the shadow
frequency outside [10, 10000]; a shadow frequency that `PROCESS` wrote is finite. -/
def Obligations.ClipLatch : Prop :=
  ∀ (i : Instr) (s t : State), exec i s = .next t →
    (s.sw.clipped = true → t.sw.clipped = false →
      (∃ note velocity, i = .noteOn note velocity) ∨ ∃ freq, i = .sweepReset freq) ∧
    (s.sw.clipped = false → t.sw.clipped = true →
      (∃ sr, i = .process sr) ∧
      (t.sw.shadow_freq.lt (F64.real 10) = true ∨ t.sw.shadow_freq.gt (F64.real 10000) = true)) ∧
    ((∃ sr, i = .process sr) → t.sw.shadow_freq ≠ s.sw.shadow_freq →
      s.sw.clipped = false ∧ t.sw.shadow_freq.isFinite = true)

/-! ## The envelope and the stutter -/

/-- 45_envelope.md R161, R162, R166, R163 (the spec's decision D20): the timed transitions of a tick on
which no stutter tick is due (the envelope is not stuttering, or the stutter only counts), at most
one, and what each leaves in the anchor and the counter. That a count of 2^53 or more is rounded, and
that seconds flushed to 0 keep a segment of time 0 in its state, is the model's choice
(notes/assumptions 25, 29). -/
def Obligations.EnvelopeTimedTransitions : Prop :=
  ∀ (par : Params) (sr : F64) (e f : Envelope) (sec : F64), stutterDue par sr e = false →
    sec = ((F64.real e.elapsed).div sr).nz → f = envAdvance par sr e →
      ((e.state = .attack ∧ sec.gt par.EgAttack = true) →
        f.state = .decay ∧ f.elapsed = 1 ∧ f.last_state_value = F64.one) ∧
      ((e.state = .decay ∧ sec.gt par.EgDecay = true) →
        f.state = .sustain ∧ f.elapsed = 1 ∧ f.last_state_value = e.value) ∧
      ((e.state = .release ∧ sec.gt par.EgRelease = true) →
        f.state = .off ∧ f.elapsed = 1 ∧ f.last_state_value = e.last_state_value) ∧
      ((e.state = .sustain ∨ e.state = .off ∨
          (e.state = .attack ∧ sec.gt par.EgAttack = false) ∨
          (e.state = .decay ∧ sec.gt par.EgDecay = false) ∨
          (e.state = .release ∧ sec.gt par.EgRelease = false)) →
        f.state = e.state ∧ f.elapsed = e.elapsed + 1 ∧
          f.last_state_value = e.last_state_value) ∧
      f.velocity = e.velocity ∧ f.note = e.note ∧ f.note_on = e.note_on ∧
      f.note_valid = e.note_valid ∧ f.stuttering = e.stuttering ∧
      f.st_count = (if e.stuttering then e.st_count + 1 else e.st_count) ∧
      f.stutter_velocity = e.stutter_velocity

/-- 45_envelope.md R167 to R171, R174, R175 (the spec's decision D24): after a tick the value is the
curve of the state entered, over the seconds the counter stood at, and the gain is the value
quantized, times the stutter velocity while stuttering, times the velocity. That a count of 2^53 or more
is rounded, and that the pseudocode stands where the rules' remarks on infinite and flushed values differ,
is the model's choice (notes/assumptions 25, 29, 30). -/
def Obligations.EnvelopeCurvesAndGain : Prop :=
  ∀ (par : Params) (sr : F64) (e f : Envelope) (sec : F64),
    f = (envProcess par sr e).2 → sec = ((F64.real (f.elapsed - 1 : Nat)).div sr).nz →
      0 < f.elapsed ∧
      f.value = (match f.state with
        | .attack => (sec.div par.EgAttack).nz
        | .decay =>
          (f.last_state_value.sub
            ((f.last_state_value.sub par.EgSustain).nz.mul (sec.div par.EgDecay).nz).nz).nz
        | .sustain => par.EgSustain
        | .release => (f.last_state_value.mul (F64.one.sub (sec.div par.EgRelease).nz).nz).nz
        | .off => F64.zero) ∧
      (envProcess par sr e).1 =
        ((((F64.real (f.value.mul (F64.real 16)).nz.floor).div (F64.real 16)).nz.mul
          (if f.stuttering then f.stutter_velocity else F64.one)).nz.mul f.velocity).nz ∧
      (envProcess par sr e).1.isFinite = true

/-- 45_envelope.md R173, R174 (the spec's decision D22): one tick of an armed stutter: counting, the
forced Off, and the retrigger, which a negative attack time leaves for Decay in the same tick
(60_exceptions.md R255). That a count of 2^53 or more is rounded, and that the pseudocode stands where
remarks on the depth and the time differ (47_voice.md R221 among them), is the model's choice
(notes/assumptions 25, 28, 29, 31). -/
def Obligations.StutterTick : Prop :=
  ∀ (par : Params) (sr : F64) (e f : Envelope) (sec v : F64), e.stuttering = true →
    sec = ((F64.real (e.st_count + 1 : Nat)).div sr).nz →
    v = (e.stutter_velocity.sub (F64.one.sub (par.StutterDepth.div (F64.real 100)).nz).nz).nz →
    f = (envProcess par sr e).2 →
      (sec.gt par.StutterTime = false →
        f.stuttering = true ∧ f.st_count = e.st_count + 1 ∧
          f.stutter_velocity = e.stutter_velocity) ∧
      (sec.gt par.StutterTime = true → v.lt K.STUTTER_FLOOR = true →
        f.stuttering = false ∧ f.st_count = 0 ∧ f.stutter_velocity = v ∧ f.state = .off ∧
          f.elapsed = 1 ∧ f.value = F64.zero ∧ f.last_state_value = e.last_state_value ∧
          (envProcess par sr e).1 = F64.zero) ∧
      (sec.gt par.StutterTime = true → v.lt K.STUTTER_FLOOR = false →
        f.stuttering = true ∧ f.st_count = 0 ∧ f.stutter_velocity = v ∧
        (F64.zero.gt par.EgAttack = false →
          f.state = .attack ∧ f.elapsed = 1 ∧ f.value = F64.zero ∧
          f.last_state_value =
            (if e.state = .attack ∨ e.state = .decay ∨ e.state = .sustain then e.value
              else e.last_state_value) ∧
          (envProcess par sr e).1 = F64.zero) ∧
        (F64.zero.gt par.EgAttack = true →
          f.state = .decay ∧ f.elapsed = 1 ∧ f.value = F64.one ∧ f.last_state_value = F64.one)) ∧
      f.velocity = e.velocity ∧ f.note = e.note ∧ f.note_on = e.note_on ∧
      f.note_valid = e.note_valid

/-- 45_envelope.md R171: an envelope in Off that is not stuttering has the value 0 after a tick, and
(47_voice.md R236, derived there) stays Off and feeds the Nibble zero level to the DAC. -/
def Obligations.OffVoiceIsSilent : Prop :=
  ∀ (sr : F64) (s t : State), s.env.state = .off → s.env.stuttering = false →
    exec (.process sr) s = .next t →
      t.env.state = .off ∧ t.env.value = F64.zero ∧
      t.dac = (dacProcess s.par sr NIB_ZERO s.dac).2

/-- 45_envelope.md R161, 48_control_access_system.md R241: every transition of the envelope's state, over
all commands, with its cause; there is no other. A due stutter tick forces Off below the floor and
retriggers Attack from it on (45_envelope.md R173), which a negative attack time leaves for Decay in
the same tick (60_exceptions.md R255). That a count of 2^53 or more is rounded, and that the pseudocode
stands where remarks on the depth and the times differ, is the model's choice (notes/assumptions 25, 28,
29, 31). -/
def Obligations.EnvelopeStateWriters : Prop :=
  ∀ (i : Instr) (s t : State), exec i s = .next t → t.env.state ≠ s.env.state →
    ((∃ note velocity, i = .noteOn note velocity) ∧ t.env.state = .attack) ∨
    ((∃ note, i = .noteOff note) ∧ t.env.state = .release ∧
      (s.env.state = .attack ∨ s.env.state = .decay ∨ s.env.state = .sustain)) ∨
    (∃ sr sec v, i = .process sr ∧ sec = ((F64.real s.env.elapsed).div sr).nz ∧
      v = (s.env.stutter_velocity.sub
        (F64.one.sub (s.par.StutterDepth.div (F64.real 100)).nz).nz).nz ∧
      ((stutterDue s.par sr s.env = false ∧
        ((s.env.state = .attack ∧ t.env.state = .decay ∧ sec.gt s.par.EgAttack = true) ∨
          (s.env.state = .decay ∧ t.env.state = .sustain ∧ sec.gt s.par.EgDecay = true) ∨
          (s.env.state = .release ∧ t.env.state = .off ∧ sec.gt s.par.EgRelease = true))) ∨
      (stutterDue s.par sr s.env = true ∧
        ((v.lt K.STUTTER_FLOOR = true ∧ t.env.state = .off) ∨
          (v.lt K.STUTTER_FLOOR = false ∧
            ((F64.zero.gt s.par.EgAttack = false ∧ t.env.state = .attack) ∨
              (F64.zero.gt s.par.EgAttack = true ∧ t.env.state = .decay)))))))

/-- 45_envelope.md R172, R164, R165: the stutter is armed only by the note event that `StutterWhen`
names, with a depth that is not zero, and disarmed only by a note event or a forced Off. That a NaN
depth does not arm is the reading of notes/assumptions 15. -/
def Obligations.StutterIsArmedOnlyByNoteEvents : Prop :=
  ∀ (i : Instr) (s t : State), exec i s = .next t →
    (s.env.stuttering = false → t.env.stuttering = true →
      s.par.StutterDepth.isZero = false ∧ s.par.StutterDepth.isNaN = false ∧
      (((∃ note velocity, i = .noteOn note velocity) ∧ s.par.StutterWhen = .noteOn) ∨
        ((∃ note, i = .noteOff note) ∧ s.par.StutterWhen = .noteOff))) ∧
    (s.env.stuttering = true → t.env.stuttering = false →
      (∃ note velocity, i = .noteOn note velocity) ∨ (∃ note, i = .noteOff note) ∨
        ((∃ sr, i = .process sr) ∧ t.env.state = .off))

/-! ## The Nibble -/

/-- 40_nibble.md R102, R101 (the spec's decision D4), R105: `toFloat` divides the negative levels by 8
and the positive by 7; `fromFloat` clamps to [-1, 1], multiplies by the same, rounds and clamps; and
the round trip holds for all 16 levels. -/
def Obligations.NibbleRoundTrip : Prop :=
  (∀ n : Nibble, toFloat n =
    if level n = 0 then F64.zero
    else (F64.real (level n)).div (if level n < 0 then F64.real 8 else F64.real 7)) ∧
  (∀ (x : F64) (h : x.isNaN = false),
    (x.lt (F64.real (-1)) = true → level (fromFloat x h) = -8) ∧
    (x.ge (F64.real (-1)) = true → x.lt F64.zero = true →
      level (fromFloat x h) = max (-8) (min 7 (x.mul (F64.real 8)).rnd)) ∧
    (x.ge F64.zero = true → x.le F64.one = true →
      level (fromFloat x h) = max (-8) (min 7 (x.mul (F64.real 7)).rnd)) ∧
    (x.gt F64.one = true → level (fromFloat x h) = 7)) ∧
  (∀ n : Nibble, ∃ h, fromFloat (toFloat n) h = n)

/-- 40_nibble.md R103, R104 (the spec's decision D6): addition saturates, and scaling by a finite gain
is the product on the level, rounded and clamped, by its sign where it overflows. -/
def Obligations.NibbleArithmeticSaturates : Prop :=
  (∀ a b : Nibble, level (nibAdd a b) = max (-8) (min 7 (level a + level b))) ∧
  (∀ (n : Nibble) (g p : F64), g.isFinite = true → p = (F64.real (level n)).mul g →
    p.isNaN = false ∧
    (p.isFinite = true → level (nibScale n g) = max (-8) (min 7 p.rnd)) ∧
    (p.isFinite = false → level (nibScale n g) = if p.sign then -8 else 7)) ∧
  (∀ n : Nibble, nibScale n F64.one = n ∧ nibScale n F64.zero = NIB_ZERO)

/-! ## The DAC -/

/-- 46_dac.md R193, R194 (the spec's decision D25): after a tick the filter's registers and the answer
are those of the difference equation, with the coefficients of that tick, on an input that is the
value of a Nibble. -/
def Obligations.DacTick : Prop :=
  ∀ (sr : F64) (s t : State), exec (.process sr) s = .next t →
    ∃ n : Nibble,
      t.dac.x1 = toFloat n ∧ t.dac.x2 = s.dac.x1 ∧ t.dac.y2 = s.dac.y1 ∧
      t.dac.y1 =
        (((((t.dac.b0n.mul (toFloat n)).nz.add (t.dac.b1n.mul s.dac.x1).nz).nz.add
          (t.dac.b2n.mul s.dac.x2).nz).nz.sub (t.dac.a1n.mul s.dac.y1).nz).nz.sub
          (t.dac.a2n.mul s.dac.y2).nz).nz ∧
      t.dac.y1.isFinite = true ∧
      t.port.response = some (responseWord .ok ((0#64) ++ t.dac.y1.bits))

/-- 46_dac.md R192 (the spec's decision D25): the coefficients and what a recomputation leaves alone;
and its corner case `DacFreq` = 0, by `P_TRIG_ZERO`: coefficients 0, 0, 0, -2, 1 for every Q. -/
def Obligations.DacCoefficients : Prop :=
  (∀ (par : Params) (sr : F64) (d : Dac) (w cw sn a a0 b1 : F64),
    w = ((((F64.real 2).mul F64.pi).nz.mul par.DacFreq).nz.div sr).nz →
    cw = (CFG.cos w).nz → sn = (CFG.sin w).nz →
    a = (sn.div ((F64.real 2).mul par.DacQ).nz).nz → b1 = (F64.one.sub cw).nz →
    a0 = (F64.one.add a).nz →
    dacRecompute par sr d =
      { d with
        b0n := ((b1.div (F64.real 2)).nz.div a0).nz
        b1n := (b1.div a0).nz
        b2n := ((b1.div (F64.real 2)).nz.div a0).nz
        a1n := (((F64.real (-2)).mul cw).nz.div a0).nz
        a2n := ((F64.one.sub a).nz.div a0).nz
        dirty := false }) ∧
  (∀ (par : Params) (sr : F64) (d : Dac), acceptedRate sr = true → par.DacFreq.isZero = true →
    dacRecompute par sr d =
      { d with
        b0n := F64.zero, b1n := F64.zero, b2n := F64.zero
        a1n := F64.real (-2), a2n := F64.one, dirty := false })

/-- 46_dac.md R191, R195: the coefficients are recomputed exactly at a `PROCESS` that finds the flag
set; `PROCESS` clears the flag, only `SET_PARAM DacFreq` and `SET_PARAM DacQ` set it, and no other
command changes the flag or a coefficient. -/
def Obligations.DacCaching : Prop :=
  ∀ (i : Instr) (s t : State), exec i s = .next t →
    ((∃ sr, i = .process sr) → t.dac.dirty = false) ∧
    (∀ sr, i = .process sr → s.dac.dirty = true →
      dacCoefficients t.dac = dacCoefficients (dacRecompute s.par sr s.dac)) ∧
    (s.dac.dirty = false → dacCoefficients t.dac = dacCoefficients s.dac) ∧
    ((∀ sr, i ≠ .process sr) → dacCoefficients t.dac = dacCoefficients s.dac) ∧
    (s.dac.dirty = false → t.dac.dirty = true →
      ∃ v, i = .setParamDacFreq v ∨ i = .setParamDacQ v) ∧
    (s.dac.dirty = true → t.dac.dirty = false → ∃ sr, i = .process sr)

/-! ## Reset and whole-machine rules -/

/-- 00_scope.md R6: the constants, `SWEEP_BIAS` and `STUTTER_FLOOR` at the binary64 nearest to the
decimal. -/
def Obligations.ConstantsAreTheSources : Prop :=
  K.NIB_MIN = -8 ∧ K.NIB_MAX = 7 ∧ K.NEG_DIV = F64.real 8 ∧ K.POS_DIV = F64.real 7 ∧
  WT_LEN = 32 ∧ NOISE_LEN = 8192 ∧
  K.DUTY[0] = F64.one.div (F64.real 8) ∧ K.DUTY[1] = F64.one.div (F64.real 4) ∧
  K.DUTY[2] = F64.one.div (F64.real 2) ∧ K.DUTY[3] = (F64.real 3).div (F64.real 4) ∧
  K.A4_HZ = F64.real 440 ∧ K.A4_NOTE = 69 ∧ K.SEMIS = F64.real 12 ∧
  K.CENTS_OCT = F64.real 1200 ∧ K.SWEEP_HZ = F64.real 128 ∧
  K.SWEEP_BIAS = (F64.real 81).div (F64.real 10) ∧ K.F_MIN = F64.real 10 ∧
  K.F_MAX = F64.real 10000 ∧ K.STUTTER_FLOOR = F64.one.div (F64.real 20) ∧
  K.LOUD_STEPS = F64.real 16 ∧ K.MS_PER_S = F64.real 1000

/-- 70_reset_and_hazards.md R271 (the spec's decision D28 for all but `env.state`): the launch state,
for every wavetable and parameter content the launch gives. That `State.reset` launches with a
table of zeros and the parameters of `Params.reset` is the model's choice (notes/assumptions 4,
5), as are the empty port (1, 2) and the draw counter (8). -/
def Obligations.LaunchState : Prop :=
  (∀ (wtReset : Vector Nibble WT_LEN) (pReset : Params) (s : State),
    s = State.launch wtReset pReset →
      s.sq = { phase := F64.zero, frequency := F64.zero } ∧
      s.no = { sec_counter := F64.zero, index := 0 } ∧
      s.wt = { phase := F64.zero, frequency := F64.zero, pitch_ratio := F64.one
               table := wtReset } ∧
      s.sw = { shadow_freq := F64.zero, timer := F64.zero, clipped := false } ∧
      s.env = { state := .off, elapsed := 0, last_state_value := F64.zero, value := F64.zero
                velocity := F64.zero, note := 0, note_on := false, note_valid := false
                stuttering := false, st_count := 0, stutter_velocity := F64.one } ∧
      s.dac = { b0n := F64.zero, b1n := F64.zero, b2n := F64.zero, a1n := F64.zero
                a2n := F64.zero, x1 := F64.zero, x2 := F64.zero, y1 := F64.zero, y2 := F64.zero
                dirty := true } ∧
      s.vo = { freq := F64.zero } ∧ s.par = pReset) ∧
  (∃ wtReset, State.reset = State.launch wtReset Params.reset)

/-- 70_reset_and_hazards.md R272, 45_envelope.md R176 (derived there): from the launch state
`GET_STATUS` returns 0x40, any note is assignable, and a `PROCESS` with an accepted rate returns
0.0, whatever the table and the parameters hold; the square's phase holds unless the open triangle
delta moves the frequency. -/
def Obligations.AfterLaunch : Prop :=
  ∀ (wtReset : Vector Nibble WT_LEN) (pReset : Params) (s : State),
    s = State.launch wtReset pReset →
      (∃ t, exec .getStatus s = .next t ∧ Answered s t .ok 0x40) ∧
      (∀ note, ∃ t, exec (.queryAssignable note) s = .next t ∧ Answered s t .ok 1) ∧
      (∀ sr, acceptedRate sr = true →
        ∃ t, exec (.process sr) s = .next t ∧ Answered s t .ok 0 ∧
          t.env.state = .off ∧ t.dac.dirty = false ∧
          (pReset.SweepType ≠ .triangle → t.sq.phase = F64.zero))

/-- The launch state meets the invariants of this file (70_reset_and_hazards.md R271). -/
def Obligations.LaunchMeetsTheInvariants : Prop :=
  ∀ (wtReset : Vector Nibble WT_LEN) (pReset : Params) (s : State),
    s = State.launch wtReset pReset →
      PhasesInRange s = true ∧ DacFinite s.dac = true ∧ NoteFlagsAgree s.env = true ∧
      ((parameterReals pReset).all F64.isCanonical = true → RegistersCanonical s = true)

/-- 10_state.md R22, R24, 70_reset_and_hazards.md R282: every step keeps `sq.phase` in [0, 1) and
`wt.phase` in [0, 32), whatever the frequencies, the pitch ratio and the sample rate are. -/
def Obligations.PhasesStayInRange : Prop :=
  ∀ s t : State, PhasesInRange s = true → step s = .next t → PhasesInRange t = true

/-- 46_dac.md R193, 10_state.md R31: every step keeps the DAC's registers finite, and a voice that is
note-on has received a NoteOn. -/
def Obligations.DacStaysFiniteAndNotesStayValid : Prop :=
  ∀ s t : State, step s = .next t →
    (DacFinite s.dac = true → DacFinite t.dac = true) ∧
    (NoteFlagsAgree s.env = true → NoteFlagsAgree t.env = true)

/-- 00_scope.md R9 (one NaN; the model's choice of its pattern is notes/assumptions 9): every step
keeps every real register a value. -/
def Obligations.RegistersStayCanonical : Prop :=
  ∀ s t : State, RegistersCanonical s = true → step s = .next t → RegistersCanonical t = true

/-- 20_memory.md R62, 60_exceptions.md R253, 47_voice.md R235: with the phases in range no step
faults, and a step is refused only at a `PROCESS` whose sample rate is NaN, infinite, zero or
negative: every other command, legal or not, completes. -/
def Obligations.StepsComplete : Prop :=
  ∀ s : State, PhasesInRange s = true →
    (∃ t, step s = .next t) ∨
    (step s = .refused .sampleRateNotFinitePositive ∧
      ∃ w rest sr, s.port.commands = w :: rest ∧ decode w = .ok (.process sr) ∧
        acceptedRate sr = false)

/-! ## The flush -/

/-- 00_scope.md R10 (the spec's decision D3): `nz` keeps a finite number of magnitude 2^-1022 or more
(the pattern 0x0010000000000000) and makes `+0.0` of every other value: of subnormals, both zeros,
both infinities and NaN. -/
def Obligations.FlushToZero : Prop :=
  ∀ x least : F64, least = ⟨0x0010000000000000⟩ →
    (x.isFinite = true → (x.ge least = true ∨ x.le least.neg = true) → x.nz = x) ∧
    (x.isFinite = false ∨ (x.lt least = true ∧ x.gt least.neg = true) → x.nz = ⟨0⟩)
end

