-- ==== Sys2Proof/Laws/Float.lean ====
section
/-! SUPPORT. What the operations on `real` can answer: which are never NaN, which are finite, and
that none makes a NaN in a pattern other than the canonical one. -/

-- One theorem at a time: many kernel evaluations at once each hold a thread and its stack.
set_option Elab.async false

namespace Sys2Proof
namespace F64

theorem mag_lt (x : F64) : x.mag < 2 ^ 63 := Nat.mod_lt _ (by decide)

/-! ## The classes of numbers -/

theorem isNaN_eq_false_of_isFinite {x : F64} (h : x.isFinite = true) : x.isNaN = false := by
  simp only [isFinite, isNaN, decide_eq_true_eq, decide_eq_false_iff_not] at *
  omega

theorem isFinite_of_not_isNaN_of_not_isInf {x : F64} (hn : x.isNaN = false) (hi : x.isInf = false) :
    x.isFinite = true := by
  simp only [isFinite, isNaN, isInf, decide_eq_true_eq, decide_eq_false_iff_not, beq_eq_false_iff_ne]
    at *
  omega

theorem isFinite_of_isNormal {x : F64} (h : x.isNormal = true) : x.isFinite = true := by
  simp only [isNormal, isFinite, Bool.and_eq_true, decide_eq_true_eq] at *
  exact h.2

theorem isCanonical_of_isNaN_eq_false {x : F64} (h : x.isNaN = false) : x.isCanonical = true := by
  simp [isCanonical, h]

@[simp] theorem isFinite_zero : zero.isFinite = true := by decide +kernel
@[simp] theorem isFinite_one : one.isFinite = true := by decide +kernel
@[simp] theorem isNaN_zero : zero.isNaN = false := by decide +kernel
@[simp] theorem isNaN_one : one.isNaN = false := by decide +kernel
@[simp] theorem isCanonical_zero : zero.isCanonical = true := by decide +kernel
@[simp] theorem isCanonical_one : one.isCanonical = true := by decide +kernel
@[simp] theorem isCanonical_nan : nan.isCanonical = true := by decide +kernel

@[simp] theorem isNaN_inf (b : Bool) : (inf b).isNaN = false := by cases b <;> decide +kernel

@[simp] theorem isCanonical_canon (x : F64) : x.canon.isCanonical = true := by
  unfold canon
  split
  · exact isCanonical_nan
  · rename_i h; exact isCanonical_of_isNaN_eq_false (by simpa using h)

@[simp] theorem isCanonical_ofBits (b : BitVec 64) : (ofBits b).isCanonical = true :=
  isCanonical_canon _

/-- A well-formed value is read back from its pattern. -/
theorem ofBits_bits {x : F64} (h : x.isCanonical = true) : ofBits x.bits = x := by
  unfold ofBits canon
  simp only [isCanonical, Bool.or_eq_true, Bool.not_eq_true', beq_iff_eq] at h
  rcases h with h | h
  · simp [h]
  · subst h; decide +kernel

/-! ## Rounding -/

/-- The pattern `round` builds from a rounded magnitude. -/
theorem mag_ofNat (neg : Bool) {b : Nat} (h : b < 2 ^ 63) :
    (F64.mk (BitVec.ofNat 64 (if neg then 2 ^ 63 + b else b))).mag = b := by
  cases neg <;> simp only [mag, BitVec.toNat_ofNat, if_true, Bool.false_eq_true, if_false] <;> omega

@[simp] theorem isNaN_signedZero (neg : Bool) : (signedZero neg).isNaN = false := by
  cases neg <;> decide +kernel

@[simp] theorem isNaN_pack (neg : Bool) (b : Nat) : (pack neg b).isNaN = false := by
  unfold pack
  split
  · exact isNaN_inf neg
  · simp only [isNaN, decide_eq_false_iff_not]
    rw [mag_ofNat neg (by omega)]
    omega

/-- A rounded number is a number: no rounding makes a NaN. -/
@[simp] theorem isNaN_round (neg : Bool) (m : Nat) (e : Int) : (round neg m e).isNaN = false := by
  unfold round
  split
  · exact isNaN_signedZero neg
  · exact isNaN_pack neg _

@[simp] theorem isNaN_real (n : Int) : (real n).isNaN = false := isNaN_round _ _ _

@[simp] theorem isCanonical_round (neg : Bool) (m : Nat) (e : Int) :
    (round neg m e).isCanonical = true := isCanonical_of_isNaN_eq_false (by simp)

@[simp] theorem isCanonical_real (n : Int) : (real n).isCanonical = true := isCanonical_round _ _ _

@[simp] theorem isCanonical_signedZero (neg : Bool) : (signedZero neg).isCanonical = true :=
  isCanonical_of_isNaN_eq_false (isNaN_signedZero neg)

@[simp] theorem isCanonical_inf (b : Bool) : (inf b).isCanonical = true :=
  isCanonical_of_isNaN_eq_false (isNaN_inf b)

/-! ## Every operation answers a canonical value -/

@[simp] theorem isCanonical_neg (x : F64) : x.neg.isCanonical = true := by
  unfold neg
  split
  · exact isCanonical_nan
  · rename_i h
    have hx : x.mag ≤ 2047 * 2 ^ 52 := by simpa [isNaN] using h
    have : ∀ b : Bool, (F64.mk (BitVec.ofNat 64 (if b then 2 ^ 63 + x.mag else x.mag))).isCanonical
        = true := by
      intro b
      refine isCanonical_of_isNaN_eq_false ?_
      simp only [isNaN, mag_ofNat b (mag_lt x), decide_eq_false_iff_not]
      omega
    split
    · exact this false
    · exact this true

theorem isNaN_neg {x : F64} (h : x.isNaN = false) : x.neg.isNaN = false := by
  unfold neg
  have hx : x.mag ≤ 2047 * 2 ^ 52 := by simpa [isNaN] using h
  have : ∀ b : Bool, (F64.mk (BitVec.ofNat 64 (if b then 2 ^ 63 + x.mag else x.mag))).isNaN
      = false := by
    intro b
    simp only [isNaN, mag_ofNat b (mag_lt x), decide_eq_false_iff_not]
    omega
  simp only [h, Bool.false_eq_true, if_false]
  split
  · exact this false
  · exact this true

@[simp] theorem isCanonical_add {x y : F64} (hx : x.isCanonical = true) (hy : y.isCanonical = true) :
    (x.add y).isCanonical = true := by
  unfold add
  repeat' split
  all_goals first | exact isCanonical_nan | exact hx | exact hy | simp

@[simp] theorem isCanonical_sub {x y : F64} (hx : x.isCanonical = true) :
    (x.sub y).isCanonical = true := isCanonical_add hx (isCanonical_neg y)

@[simp] theorem isCanonical_mul (x y : F64) : (x.mul y).isCanonical = true := by
  unfold mul
  repeat' split
  all_goals first | exact isCanonical_nan | simp

@[simp] theorem isCanonical_div (x y : F64) : (x.div y).isCanonical = true := by
  unfold div
  simp only []
  split
  · exact isCanonical_nan
  split
  · split
    · exact isCanonical_nan
    · simp
  split
  · simp
  split
  · split
    · exact isCanonical_nan
    · simp
  · simp

/-! ## Sums of a finite number -/

/-- A finite number plus a number is a number. -/
theorem isNaN_add {x y : F64} (hx : x.isFinite = true) (hy : y.isNaN = false) :
    (x.add y).isNaN = false := by
  have hx' := isNaN_eq_false_of_isFinite hx
  have hi : x.isInf = false := by
    simp only [isFinite, isInf, decide_eq_true_eq, beq_eq_false_iff_ne] at *
    omega
  unfold add
  simp only [hx', hy, hi, Bool.or_self, Bool.false_eq_true, if_false]
  split
  · exact hy
  · split
    · exact isNaN_signedZero _
    · exact isNaN_round _ _ _

theorem isNaN_sub {x y : F64} (hx : x.isFinite = true) (hy : y.isNaN = false) :
    (x.sub y).isNaN = false := isNaN_add hx (isNaN_neg hy)

/-- A nonzero finite number times a number is a number. -/
theorem isNaN_mul {x y : F64} (hx : x.isFinite = true) (h0 : x.isZero = false)
    (hy : y.isNaN = false) : (x.mul y).isNaN = false := by
  have hx' := isNaN_eq_false_of_isFinite hx
  have hi : x.isInf = false := by
    simp only [isFinite, isInf, decide_eq_true_eq, beq_eq_false_iff_ne] at *
    omega
  unfold mul
  simp only [hx', hy, hi, h0, Bool.or_self, Bool.false_or, Bool.false_eq_true, if_false]
  split
  · rename_i hyi
    have : y.isZero = false := by
      simp only [isInf, isZero, beq_iff_eq, beq_eq_false_iff_ne] at *
      omega
    simp [this]
  · exact isNaN_round _ _ _

/-! ## The flush `nz` -/

@[simp] theorem isFinite_nz (x : F64) : x.nz.isFinite = true := by
  unfold nz
  split
  · rename_i h; exact isFinite_of_isNormal h
  · exact isFinite_zero

@[simp] theorem isNaN_nz (x : F64) : x.nz.isNaN = false := isNaN_eq_false_of_isFinite (isFinite_nz x)

@[simp] theorem isCanonical_nz (x : F64) : x.nz.isCanonical = true :=
  isCanonical_of_isNaN_eq_false (isNaN_nz x)

theorem nz_of_not_isNormal {x : F64} (h : x.isNormal = false) : x.nz = zero := by simp [nz, h]

@[simp] theorem nz_zero : zero.nz = zero := nz_of_not_isNormal (by decide +kernel)

@[simp] theorem nz_nz (x : F64) : x.nz.nz = x.nz := by
  by_cases h : x.isNormal = true
  · simp [nz, h]
  · simp [nz_of_not_isNormal (by simpa using h)]

@[simp] theorem mant_zero : zero.mant = 0 := by decide +kernel
@[simp] theorem isInf_zero : zero.isInf = false := by decide +kernel
@[simp] theorem isZero_zero : zero.isZero = true := by decide +kernel

/-- Zero times anything is flushed to zero: a zero of either sign or a NaN. -/
theorem nz_of_zero_mul (x : F64) : (zero.mul x).nz = zero := by
  refine nz_of_not_isNormal ?_
  unfold mul
  simp only [isNaN_zero, isInf_zero, isZero_zero, mant_zero, Nat.zero_mul, Bool.false_or,
    Bool.true_or, if_true]
  split
  · decide +kernel
  · split
    · decide +kernel
    · unfold round
      simp only [if_true]
      cases (zero.sign != x.sign) <;> decide +kernel

theorem mul_comm_real (x y : F64) : x.mul y = y.mul x := by
  unfold mul
  rw [Bool.or_comm x.isNaN, Bool.or_comm x.isInf, Bool.or_comm x.isZero, Nat.mul_comm x.mant,
    Int.add_comm x.expo, bne_comm (a := x.sign)]

/-- Anything times zero is flushed to zero. -/
theorem nz_of_mul_zero (x : F64) : (x.mul zero).nz = zero := by rw [mul_comm_real, nz_of_zero_mul]

/-! ## The order -/

/-- On numbers, not below is at or above. -/
theorem ge_eq_not_lt {x y : F64} (hx : x.isNaN = false) (hy : y.isNaN = false) :
    x.ge y = !x.lt y := by
  simp only [ge, le, lt, hx, hy, Bool.not_false, Bool.true_and]
  by_cases h : x.key < y.key
  · simp [h]
  · simp [h, Int.not_lt.mp h]

@[simp] theorem eq_zero_zero : zero.eq zero = true := by decide +kernel

/-- `x != 0.0` holds of the numbers that are no zero, and of no NaN (00_scope.md R8). -/
theorem ne_zero (x : F64) : x.ne zero = (!x.isNaN && !x.isZero) := by
  have hz : zero.key = 0 := by decide +kernel
  have hk : (x.key != 0) = !x.isZero := by
    unfold key isZero
    generalize x.mag = m
    rw [Bool.eq_iff_iff]
    simp only [bne_iff_ne, ne_eq, Bool.not_eq_true', beq_eq_false_iff_ne]
    split <;> omega
  rw [ne, hz, hk, isNaN_zero, Bool.not_false, Bool.and_true]

/-- Zero divided by anything is flushed to zero: a zero of either sign or a NaN. -/
theorem nz_of_zero_div (x : F64) : (zero.div x).nz = zero := by
  refine nz_of_not_isNormal ?_
  have hs : ∀ b, (signedZero b).isNormal = false := by decide +kernel
  have hn : nan.isNormal = false := by decide +kernel
  have hr : ∀ b e, round b 0 e = signedZero b := fun b e => by simp only [round, if_true]
  unfold div
  simp only [isNaN_zero, isInf_zero, mant_zero, isZero_zero, Bool.false_or, if_true,
    Bool.false_eq_true, if_false]
  split
  · exact hn
  split
  · exact hs _
  split
  · exact hn
  · simp only [Nat.zero_mul, Nat.zero_div, Nat.mul_zero, Nat.zero_mod, if_true, Nat.add_zero, hr]
    exact hs _

/-- A number at or above zero and below 32 has its floor in [0, 31]. -/
theorem floor_mem_of_inRange {x : F64} (h0 : x.ge zero = true) (h1 : x.lt (real 32) = true) :
    0 ≤ x.floor ∧ x.floor < 32 := by
  have hz : zero.key = 0 := by decide +kernel
  have h32 : (real 32).key = 4629700416936869888 := by decide +kernel
  simp only [ge, le, lt, hz, h32, Bool.and_eq_true, Bool.not_eq_true', decide_eq_true_eq] at h0 h1
  have hk0 := h0.2
  have hk1 := h1.2
  have hm : x.mag < 4629700416936869888 := by
    unfold key at hk0 hk1
    split at hk0 <;> simp_all
  have hf : x.isFinite = true := by simp only [isFinite, decide_eq_true_eq]; omega
  have hE : x.expField ≤ 1027 := by unfold expField; omega
  have hfr : x.fracField < 2 ^ 52 := Nat.mod_lt _ (by decide)
  have hmant : x.mant < 2 ^ 53 := by unfold mant; split <;> omega
  have he : x.expo ≤ -48 := by unfold expo; omega
  have hs : x.smant = (x.mant : Int) ∨ x.mant = 0 := by
    by_cases hsg : x.sign = true
    · right
      have hm0 : x.mag = 0 := by
        unfold key at hk0
        simp only [hsg, if_true] at hk0
        omega
      have hmag : x.bits.toNat % 2 ^ 63 = 0 := hm0
      have : x.fracField = 0 := by unfold fracField; omega
      have : x.expField = 0 := by unfold expField; omega
      simp [mant, *]
    · left; simp [smant, hsg]
  have hs' : x.smant = (x.mant : Int) := by
    rcases hs with h | h
    · exact h
    · unfold smant; rw [h]; simp
  have hfl : x.floor = (x.mant : Int) / 2 ^ (-x.expo).toNat := by
    unfold floor
    rw [if_pos hf, if_neg (by omega), hs']
  rw [hfl]
  have hpow : (2 : Int) ^ 48 ≤ 2 ^ (-x.expo).toNat :=
    pow_le_pow_right₀ (by decide) (by omega)
  refine ⟨Int.ediv_nonneg (by omega) (by omega), ?_⟩
  refine Int.ediv_lt_of_lt_mul (by omega) ?_
  omega

/-- A power of two is a number, for every exponent: its fraction field is zero. -/
@[simp] theorem isCanonical_pow2 (k : Int) : (pow2 k).isCanonical = true := by
  apply isCanonical_of_isNaN_eq_false
  simp only [pow2, isNaN, mag, BitVec.toNat_ofNat, decide_eq_false_iff_not]
  omega

/-! ## Equality by key, and the two zeros -/

theorem eq_zero_or_negZero {x : F64} (h : x.isZero = true) : x = zero ∨ x = negZero := by
  simp only [isZero, mag, beq_iff_eq] at h
  have := x.bits.isLt
  have : x.bits.toNat = 0 ∨ x.bits.toNat = 2 ^ 63 := by omega
  rcases this with h | h
  · left; cases x; simp only [zero, mk.injEq]; apply BitVec.eq_of_toNat_eq; simpa using h
  · right; cases x; simp only [negZero, mk.injEq]; apply BitVec.eq_of_toNat_eq; simpa using h

/-- A value that is no zero is known by its key. -/
theorem eq_of_key_eq {x y : F64} (hx : x.isZero = false) (h : x.key = y.key) : x = y := by
  have hx0 : x.mag ≠ 0 := by simpa [isZero] using hx
  have := x.bits.isLt
  have := y.bits.isLt
  unfold key sign at h
  have hm : x.bits.toNat = y.bits.toNat := by
    have e1 : x.mag = x.bits.toNat % 2 ^ 63 := rfl
    have e2 : y.mag = y.bits.toNat % 2 ^ 63 := rfl
    split at h <;> split at h <;> simp_all <;> omega
  cases x; cases y; congr 1; exact BitVec.eq_of_toNat_eq hm

/-- Anything times a value that is not finite is flushed to zero: an infinity or a NaN. -/
theorem nz_of_mul_not_finite (x : F64) {v : F64} (h : v.isFinite = false) : (x.mul v).nz = zero := by
  refine nz_of_not_isNormal ?_
  unfold mul
  have : v.isNaN = true ∨ v.isInf = true := by
    by_contra hc
    simp only [not_or, Bool.not_eq_true] at hc
    rw [isFinite_of_not_isNaN_of_not_isInf hc.1 hc.2] at h
    cases h
  rcases this with h | h
  · simp [h]; decide +kernel
  · simp only [h, Bool.or_true, if_true]
    split
    · decide +kernel
    · split
      · decide +kernel
      · cases (x.sign != v.sign) <;> decide +kernel

end F64
end Sys2Proof
end

