-- ==== Sys2Proof/Laws/Decode.lean ====
section
/-! SUPPORT. The fields of an assembled command word, and the operands read back from it. -/

namespace Sys2Proof

@[simp] theorem opField_commandWord (op idx : Byte) (d : Data) :
    opField (commandWord op idx d) = op := by
  refine BitVec.eq_of_getLsbD_eq fun i hi => ?_
  simp only [opField, commandWord, BitVec.getLsbD_extractLsb', BitVec.getLsbD_append]
  rw [if_neg (by omega), if_neg (by omega), show 136 + i - 128 - 8 = i by omega]
  simp [hi]

@[simp] theorem idxField_commandWord (op idx : Byte) (d : Data) :
    idxField (commandWord op idx d) = idx := by
  refine BitVec.eq_of_getLsbD_eq fun i hi => ?_
  simp only [idxField, commandWord, BitVec.getLsbD_extractLsb', BitVec.getLsbD_append]
  rw [if_neg (by omega), if_pos (by omega), show 128 + i - 128 = i by omega]
  simp [hi]

@[simp] theorem dataField_commandWord (op idx : Byte) (d : Data) :
    dataField (commandWord op idx d) = d := by
  refine BitVec.eq_of_getLsbD_eq fun i hi => ?_
  simp only [dataField, commandWord, BitVec.getLsbD_extractLsb', BitVec.getLsbD_append]
  rw [if_pos (by omega), show 0 + i = i by omega]
  simp [hi]

/-- Every word is the word of its three fields. -/
theorem commandWord_fields (w : CommandWord) :
    commandWord (opField w) (idxField w) (dataField w) = w := by
  refine BitVec.eq_of_getLsbD_eq fun i hi => ?_
  simp only [opField, idxField, dataField, commandWord, BitVec.getLsbD_extractLsb',
    BitVec.getLsbD_append]
  by_cases h1 : i < 128
  · rw [if_pos h1, show 0 + i = i by omega]
    simp [h1]
  · rw [if_neg h1]
    by_cases h2 : i - 128 < 8
    · rw [if_pos h2, show 128 + (i - 128) = i by omega]
      simp [h2]
    · rw [if_neg h2, show 136 + (i - 128 - 8) = i by omega]
      simp [show i - 128 - 8 < 8 by omega]

theorem low_realData (x : F64) : (realData x).extractLsb' 0 64 = x.bits := by
  refine BitVec.eq_of_getLsbD_eq fun i hi => ?_
  simp only [realData, BitVec.getLsbD_extractLsb', BitVec.getLsbD_append]
  rw [if_pos (by omega), show 0 + i = i by omega]
  simp [hi]

theorem low_nibbleData (n : Nibble) : (nibbleData n).extractLsb' 0 4 = n := by
  refine BitVec.eq_of_getLsbD_eq fun i hi => ?_
  simp only [nibbleData, BitVec.getLsbD_extractLsb', BitVec.getLsbD_append]
  rw [if_pos (by omega), show 0 + i = i by omega]
  simp [hi]

@[simp] theorem realOperand_commandWord (op idx : Byte) {x : F64} (h : x.isCanonical = true) :
    realOperand (commandWord op idx (realData x)) = x := by
  rw [realOperand, dataField_commandWord, low_realData, F64.ofBits_bits h]

@[simp] theorem nibbleOperand_commandWord (op idx : Byte) (n : Nibble) :
    nibbleOperand (commandWord op idx (nibbleData n)) = n := by
  rw [nibbleOperand, dataField_commandWord, low_nibbleData]

/-- A real operand the decoder assembles is a value. -/
@[simp] theorem isCanonical_realOperand (w : CommandWord) : (realOperand w).isCanonical = true :=
  F64.isCanonical_ofBits _

/-- A packed list is below the weight of its next entry. -/
theorem packNibbles_lt (l : List Nibble) : packNibbles l < 16 ^ l.length := by
  induction l with
  | nil => simp [packNibbles]
  | cons n rest ih =>
    have := n.isLt
    simp only [packNibbles, List.length_cons, Nat.pow_succ]
    omega

/-- Digit `i` of a packed list is entry `i`. -/
theorem packNibbles_digit (l : List Nibble) (i : Nat) (h : i < l.length) :
    packNibbles l / 16 ^ i % 16 = (l[i]).toNat := by
  induction l generalizing i with
  | nil => simp at h
  | cons n rest ih =>
    have hn := n.isLt
    cases i with
    | zero => simp only [packNibbles, Nat.pow_zero, Nat.div_one, List.getElem_cons_zero]; omega
    | succ k =>
      have hk : k < rest.length := by simpa using h
      rw [List.getElem_cons_succ, ← ih k hk, Nat.pow_succ, Nat.mul_comm, ← Nat.div_div_eq_div_mul]
      congr 2
      simp only [packNibbles]
      omega

/-- Unpacking a packed table gives it back (20_memory.md R60). -/
@[simp] theorem unpackTable_packTable (t : Vector Nibble WT_LEN) : unpackTable (packTable t) = t := by
  apply Vector.ext
  intro i hi
  simp only [unpackTable, Vector.getElem_ofFn]
  apply BitVec.eq_of_toNat_eq
  have hlen : t.toList.length = 32 := by simp
  have hlt := packNibbles_lt t.toList
  rw [hlen] at hlt
  have hd := packNibbles_digit t.toList i (by rw [hlen]; exact hi)
  simp only [packTable, BitVec.extractLsb'_toNat, BitVec.toNat_ofNat]
  rw [Nat.mod_eq_of_lt (a := packNibbles t.toList) (by omega), Nat.shiftRight_eq_div_pow, Nat.pow_mul]
  simpa using hd

end Sys2Proof
end

