-- ==== Sys2Proof/Laws/State.lean ====
section
/-! SUPPORT. One lemma per field of State and per update of State, so that no proof unfolds a record
update. -/

namespace Sys2Proof.Machine

section
variable (s : State) (v : Square)
@[simp] theorem State.setSq_sq : (s.setSq v).sq = v := rfl
@[simp] theorem State.setSq_no : (s.setSq v).no = s.no := rfl
@[simp] theorem State.setSq_wt : (s.setSq v).wt = s.wt := rfl
@[simp] theorem State.setSq_sw : (s.setSq v).sw = s.sw := rfl
@[simp] theorem State.setSq_env : (s.setSq v).env = s.env := rfl
@[simp] theorem State.setSq_dac : (s.setSq v).dac = s.dac := rfl
@[simp] theorem State.setSq_vo : (s.setSq v).vo = s.vo := rfl
@[simp] theorem State.setSq_par : (s.setSq v).par = s.par := rfl
@[simp] theorem State.setSq_port : (s.setSq v).port = s.port := rfl
@[simp] theorem State.setSq_draws : (s.setSq v).draws = s.draws := rfl
end

section
variable (s : State) (v : Noise)
@[simp] theorem State.setNo_sq : (s.setNo v).sq = s.sq := rfl
@[simp] theorem State.setNo_no : (s.setNo v).no = v := rfl
@[simp] theorem State.setNo_wt : (s.setNo v).wt = s.wt := rfl
@[simp] theorem State.setNo_sw : (s.setNo v).sw = s.sw := rfl
@[simp] theorem State.setNo_env : (s.setNo v).env = s.env := rfl
@[simp] theorem State.setNo_dac : (s.setNo v).dac = s.dac := rfl
@[simp] theorem State.setNo_vo : (s.setNo v).vo = s.vo := rfl
@[simp] theorem State.setNo_par : (s.setNo v).par = s.par := rfl
@[simp] theorem State.setNo_port : (s.setNo v).port = s.port := rfl
@[simp] theorem State.setNo_draws : (s.setNo v).draws = s.draws := rfl
end

section
variable (s : State) (v : Wavetable)
@[simp] theorem State.setWt_sq : (s.setWt v).sq = s.sq := rfl
@[simp] theorem State.setWt_no : (s.setWt v).no = s.no := rfl
@[simp] theorem State.setWt_wt : (s.setWt v).wt = v := rfl
@[simp] theorem State.setWt_sw : (s.setWt v).sw = s.sw := rfl
@[simp] theorem State.setWt_env : (s.setWt v).env = s.env := rfl
@[simp] theorem State.setWt_dac : (s.setWt v).dac = s.dac := rfl
@[simp] theorem State.setWt_vo : (s.setWt v).vo = s.vo := rfl
@[simp] theorem State.setWt_par : (s.setWt v).par = s.par := rfl
@[simp] theorem State.setWt_port : (s.setWt v).port = s.port := rfl
@[simp] theorem State.setWt_draws : (s.setWt v).draws = s.draws := rfl
end

section
variable (s : State) (v : Sweep)
@[simp] theorem State.setSw_sq : (s.setSw v).sq = s.sq := rfl
@[simp] theorem State.setSw_no : (s.setSw v).no = s.no := rfl
@[simp] theorem State.setSw_wt : (s.setSw v).wt = s.wt := rfl
@[simp] theorem State.setSw_sw : (s.setSw v).sw = v := rfl
@[simp] theorem State.setSw_env : (s.setSw v).env = s.env := rfl
@[simp] theorem State.setSw_dac : (s.setSw v).dac = s.dac := rfl
@[simp] theorem State.setSw_vo : (s.setSw v).vo = s.vo := rfl
@[simp] theorem State.setSw_par : (s.setSw v).par = s.par := rfl
@[simp] theorem State.setSw_port : (s.setSw v).port = s.port := rfl
@[simp] theorem State.setSw_draws : (s.setSw v).draws = s.draws := rfl
end

section
variable (s : State) (v : Envelope)
@[simp] theorem State.setEnv_sq : (s.setEnv v).sq = s.sq := rfl
@[simp] theorem State.setEnv_no : (s.setEnv v).no = s.no := rfl
@[simp] theorem State.setEnv_wt : (s.setEnv v).wt = s.wt := rfl
@[simp] theorem State.setEnv_sw : (s.setEnv v).sw = s.sw := rfl
@[simp] theorem State.setEnv_env : (s.setEnv v).env = v := rfl
@[simp] theorem State.setEnv_dac : (s.setEnv v).dac = s.dac := rfl
@[simp] theorem State.setEnv_vo : (s.setEnv v).vo = s.vo := rfl
@[simp] theorem State.setEnv_par : (s.setEnv v).par = s.par := rfl
@[simp] theorem State.setEnv_port : (s.setEnv v).port = s.port := rfl
@[simp] theorem State.setEnv_draws : (s.setEnv v).draws = s.draws := rfl
end

section
variable (s : State) (v : Dac)
@[simp] theorem State.setDac_sq : (s.setDac v).sq = s.sq := rfl
@[simp] theorem State.setDac_no : (s.setDac v).no = s.no := rfl
@[simp] theorem State.setDac_wt : (s.setDac v).wt = s.wt := rfl
@[simp] theorem State.setDac_sw : (s.setDac v).sw = s.sw := rfl
@[simp] theorem State.setDac_env : (s.setDac v).env = s.env := rfl
@[simp] theorem State.setDac_dac : (s.setDac v).dac = v := rfl
@[simp] theorem State.setDac_vo : (s.setDac v).vo = s.vo := rfl
@[simp] theorem State.setDac_par : (s.setDac v).par = s.par := rfl
@[simp] theorem State.setDac_port : (s.setDac v).port = s.port := rfl
@[simp] theorem State.setDac_draws : (s.setDac v).draws = s.draws := rfl
end

section
variable (s : State) (v : Voice)
@[simp] theorem State.setVo_sq : (s.setVo v).sq = s.sq := rfl
@[simp] theorem State.setVo_no : (s.setVo v).no = s.no := rfl
@[simp] theorem State.setVo_wt : (s.setVo v).wt = s.wt := rfl
@[simp] theorem State.setVo_sw : (s.setVo v).sw = s.sw := rfl
@[simp] theorem State.setVo_env : (s.setVo v).env = s.env := rfl
@[simp] theorem State.setVo_dac : (s.setVo v).dac = s.dac := rfl
@[simp] theorem State.setVo_vo : (s.setVo v).vo = v := rfl
@[simp] theorem State.setVo_par : (s.setVo v).par = s.par := rfl
@[simp] theorem State.setVo_port : (s.setVo v).port = s.port := rfl
@[simp] theorem State.setVo_draws : (s.setVo v).draws = s.draws := rfl
end

section
variable (s : State) (v : Params)
@[simp] theorem State.setPar_sq : (s.setPar v).sq = s.sq := rfl
@[simp] theorem State.setPar_no : (s.setPar v).no = s.no := rfl
@[simp] theorem State.setPar_wt : (s.setPar v).wt = s.wt := rfl
@[simp] theorem State.setPar_sw : (s.setPar v).sw = s.sw := rfl
@[simp] theorem State.setPar_env : (s.setPar v).env = s.env := rfl
@[simp] theorem State.setPar_dac : (s.setPar v).dac = s.dac := rfl
@[simp] theorem State.setPar_vo : (s.setPar v).vo = s.vo := rfl
@[simp] theorem State.setPar_par : (s.setPar v).par = v := rfl
@[simp] theorem State.setPar_port : (s.setPar v).port = s.port := rfl
@[simp] theorem State.setPar_draws : (s.setPar v).draws = s.draws := rfl
end

section
variable (s : State) (ws : List CommandWord)
@[simp] theorem State.setCommands_sq : (s.setCommands ws).sq = s.sq := rfl
@[simp] theorem State.setCommands_no : (s.setCommands ws).no = s.no := rfl
@[simp] theorem State.setCommands_wt : (s.setCommands ws).wt = s.wt := rfl
@[simp] theorem State.setCommands_sw : (s.setCommands ws).sw = s.sw := rfl
@[simp] theorem State.setCommands_env : (s.setCommands ws).env = s.env := rfl
@[simp] theorem State.setCommands_dac : (s.setCommands ws).dac = s.dac := rfl
@[simp] theorem State.setCommands_vo : (s.setCommands ws).vo = s.vo := rfl
@[simp] theorem State.setCommands_par : (s.setCommands ws).par = s.par := rfl
@[simp] theorem State.setCommands_port : (s.setCommands ws).port = { s.port with commands := ws } := rfl
@[simp] theorem State.setCommands_draws : (s.setCommands ws).draws = s.draws := rfl
end

section
variable (s : State) (w : ResponseWord)
@[simp] theorem State.setResponse_sq : (s.setResponse w).sq = s.sq := rfl
@[simp] theorem State.setResponse_no : (s.setResponse w).no = s.no := rfl
@[simp] theorem State.setResponse_wt : (s.setResponse w).wt = s.wt := rfl
@[simp] theorem State.setResponse_sw : (s.setResponse w).sw = s.sw := rfl
@[simp] theorem State.setResponse_env : (s.setResponse w).env = s.env := rfl
@[simp] theorem State.setResponse_dac : (s.setResponse w).dac = s.dac := rfl
@[simp] theorem State.setResponse_vo : (s.setResponse w).vo = s.vo := rfl
@[simp] theorem State.setResponse_par : (s.setResponse w).par = s.par := rfl
@[simp] theorem State.setResponse_port : (s.setResponse w).port = { s.port with response := some w } := rfl
@[simp] theorem State.setResponse_draws : (s.setResponse w).draws = s.draws := rfl
end

section
variable (s : State)
@[simp] theorem State.drawn_sq : s.drawn.sq = s.sq := rfl
@[simp] theorem State.drawn_no : s.drawn.no = s.no := rfl
@[simp] theorem State.drawn_wt : s.drawn.wt = s.wt := rfl
@[simp] theorem State.drawn_sw : s.drawn.sw = s.sw := rfl
@[simp] theorem State.drawn_env : s.drawn.env = s.env := rfl
@[simp] theorem State.drawn_dac : s.drawn.dac = s.dac := rfl
@[simp] theorem State.drawn_vo : s.drawn.vo = s.vo := rfl
@[simp] theorem State.drawn_par : s.drawn.par = s.par := rfl
@[simp] theorem State.drawn_port : s.drawn.port = s.port := rfl
@[simp] theorem State.drawn_draws : s.drawn.draws = s.draws + 1 := rfl
end

section
variable (s : State) (t : Vector Nibble WT_LEN)
@[simp] theorem State.setTable_sq : (s.setTable t).sq = s.sq := rfl
@[simp] theorem State.setTable_no : (s.setTable t).no = s.no := rfl
@[simp] theorem State.setTable_wt : (s.setTable t).wt = { s.wt with table := t } := rfl
@[simp] theorem State.setTable_sw : (s.setTable t).sw = s.sw := rfl
@[simp] theorem State.setTable_env : (s.setTable t).env = s.env := rfl
@[simp] theorem State.setTable_dac : (s.setTable t).dac = s.dac := rfl
@[simp] theorem State.setTable_vo : (s.setTable t).vo = s.vo := rfl
@[simp] theorem State.setTable_par : (s.setTable t).par = s.par := rfl
@[simp] theorem State.setTable_port : (s.setTable t).port = s.port := rfl
@[simp] theorem State.setTable_draws : (s.setTable t).draws = s.draws := rfl
end

section
variable (d : Data) (s : State)
@[simp] theorem respond_sq : (respond d s).sq = s.sq := rfl
@[simp] theorem respond_no : (respond d s).no = s.no := rfl
@[simp] theorem respond_wt : (respond d s).wt = s.wt := rfl
@[simp] theorem respond_sw : (respond d s).sw = s.sw := rfl
@[simp] theorem respond_env : (respond d s).env = s.env := rfl
@[simp] theorem respond_dac : (respond d s).dac = s.dac := rfl
@[simp] theorem respond_vo : (respond d s).vo = s.vo := rfl
@[simp] theorem respond_par : (respond d s).par = s.par := rfl
@[simp] theorem respond_port : (respond d s).port = { s.port with response := some (responseWord .ok d) } := rfl
@[simp] theorem respond_draws : (respond d s).draws = s.draws := rfl
end

section
variable (s : State)
@[simp] theorem done_sq : (done s).sq = s.sq := rfl
@[simp] theorem done_no : (done s).no = s.no := rfl
@[simp] theorem done_wt : (done s).wt = s.wt := rfl
@[simp] theorem done_sw : (done s).sw = s.sw := rfl
@[simp] theorem done_env : (done s).env = s.env := rfl
@[simp] theorem done_dac : (done s).dac = s.dac := rfl
@[simp] theorem done_vo : (done s).vo = s.vo := rfl
@[simp] theorem done_par : (done s).par = s.par := rfl
@[simp] theorem done_port : (done s).port = { s.port with response := some (responseWord .ok 0) } := rfl
@[simp] theorem done_draws : (done s).draws = s.draws := rfl
end

section
variable (st : Status) (s : State)
@[simp] theorem raise_sq : (raise st s).sq = s.sq := rfl
@[simp] theorem raise_no : (raise st s).no = s.no := rfl
@[simp] theorem raise_wt : (raise st s).wt = s.wt := rfl
@[simp] theorem raise_sw : (raise st s).sw = s.sw := rfl
@[simp] theorem raise_env : (raise st s).env = s.env := rfl
@[simp] theorem raise_dac : (raise st s).dac = s.dac := rfl
@[simp] theorem raise_vo : (raise st s).vo = s.vo := rfl
@[simp] theorem raise_par : (raise st s).par = s.par := rfl
@[simp] theorem raise_port : (raise st s).port = { s.port with response := some (responseWord st 0) } := rfl
@[simp] theorem raise_draws : (raise st s).draws = s.draws := rfl
end

section
variable (v : F64) (s : State)
@[simp] theorem respondReal_sq : (respondReal v s).sq = s.sq := rfl
@[simp] theorem respondReal_no : (respondReal v s).no = s.no := rfl
@[simp] theorem respondReal_wt : (respondReal v s).wt = s.wt := rfl
@[simp] theorem respondReal_sw : (respondReal v s).sw = s.sw := rfl
@[simp] theorem respondReal_env : (respondReal v s).env = s.env := rfl
@[simp] theorem respondReal_dac : (respondReal v s).dac = s.dac := rfl
@[simp] theorem respondReal_vo : (respondReal v s).vo = s.vo := rfl
@[simp] theorem respondReal_par : (respondReal v s).par = s.par := rfl
@[simp] theorem respondReal_port :
    (respondReal v s).port =
      { s.port with response := some (responseWord .ok ((0#64) ++ bits64 s.draws v)) } := rfl
@[simp] theorem respondReal_draws :
    (respondReal v s).draws = if v.isNaN then s.draws + 1 else s.draws := rfl
end

end Sys2Proof.Machine
end

