-- ==== Sys2Proof/Laws/Oscillators.lean ====
section
/-! SUPPORT. What the oscillators' phase reductions and table reads can answer. -/

-- One theorem at a time: many kernel evaluations at once each hold a thread and its stack.
set_option Elab.async false

namespace Sys2Proof.Machine

theorem inRange_iff {lo hi x : F64} : inRange lo hi x = true ↔ x.ge lo = true ∧ x.lt hi = true := by
  simp [inRange]

/-- A number that the two tests of R112 and R132 let through is in range. -/
theorem inRange_of_tests {hi p : F64} (hp : p.isNaN = false) (hhi : hi.isNaN = false)
    (h : (p.ge hi || p.lt F64.zero) = false) : inRange F64.zero hi p = true := by
  rw [Bool.or_eq_false_iff] at h
  have h1 := F64.ge_eq_not_lt hp hhi
  have h2 := F64.ge_eq_not_lt hp F64.isNaN_zero
  rw [inRange_iff]
  constructor
  · rw [h2, h.2]; rfl
  · rw [h.1] at h1; simpa using h1.symm

/-- The square's reduction keeps its phase in [0, 1) (R112). -/
theorem inRange_wrapUnit (t : F64) : inRange F64.zero F64.one (wrapUnit t) = true := by
  have h0 : inRange F64.zero F64.one F64.zero = true := by decide +kernel
  unfold wrapUnit
  split
  · rename_i ht
    simp only []
    split
    · exact h0
    · rename_i h
      exact inRange_of_tests (F64.isNaN_sub ht (by simp)) F64.isNaN_one (by simpa using h)
  · exact h0

theorem isFinite_wtLen : wtLen.isFinite = true := by decide +kernel
theorem isZero_wtLen : wtLen.isZero = false := by decide +kernel

/-- The wavetable's reduction keeps its phase in [0, 32) (R132). -/
theorem inRange_wrapTable (t : F64) : inRange F64.zero wtLen (wrapTable t) = true := by
  have h0 : inRange F64.zero wtLen F64.zero = true := by decide +kernel
  unfold wrapTable
  split
  · rename_i ht
    simp only []
    split
    · exact h0
    · rename_i h
      refine inRange_of_tests (F64.isNaN_sub ht ?_)
        (F64.isNaN_eq_false_of_isFinite isFinite_wtLen) (by simpa using h)
      exact F64.isNaN_mul isFinite_wtLen isZero_wtLen (by simp)
  · exact h0

/-- A read at an index of the table answers the entry. -/
theorem tabRead_of_mem {t : Vector Nibble WT_LEN} {i : Int} (h0 : 0 ≤ i) (h1 : i < WT_LEN) :
    ∃ (h : i.toNat < WT_LEN), tabRead t i = some t[i.toNat] := by
  refine ⟨by omega, ?_⟩
  unfold tabRead
  rw [if_pos h0]
  exact Vector.getElem?_eq_getElem (by omega)

/-- With the phase in range the look-up has a result, the entry at `floor(wt.phase)` (R131). -/
theorem wtLookup_of_inRange {wt : Wavetable} (h : inRange F64.zero wtLen wt.phase = true) :
    ∃ (hi : wt.phase.floor.toNat < WT_LEN), wtLookup wt = some wt.table[wt.phase.floor.toNat] := by
  rw [inRange_iff] at h
  have := F64.floor_mem_of_inRange h.1 h.2
  exact tabRead_of_mem this.1 this.2

/-- With the phase in range the unit's tick has a result. -/
theorem wtProcess_of_inRange (sr : F64) {wt : Wavetable}
    (h : inRange F64.zero wtLen wt.phase = true) :
    ∃ out, wtLookup wt = some out ∧ wtProcess sr wt = some (out, wtAdvance sr wt) := by
  obtain ⟨_, hl⟩ := wtLookup_of_inRange h
  exact ⟨_, hl, by simp [wtProcess, hl]⟩

/-- `TabWrite` at an index of the table changes that entry and no other. -/
theorem tabWrite_getElem (t : Vector Nibble WT_LEN) (i : Nat) (v : Nibble) (j : Nat)
    (hj : j < WT_LEN) : (tabWrite t i v)[j] = if i = j then v else t[j] := by
  unfold tabWrite
  split
  · exact Vector.getElem_set _ hj
  · rename_i h
    rw [if_neg (by omega)]

/-- `TabWrite` outside the table changes nothing. -/
theorem tabWrite_of_ge {t : Vector Nibble WT_LEN} {i : Nat} (v : Nibble) (h : WT_LEN ≤ i) :
    tabWrite t i v = t := by
  unfold tabWrite
  rw [dif_neg (by omega)]

/-- The square's tick: the output by the phase before it, the phase after it in range, the frequency
kept (R115). -/
theorem sqProcess_spec (bend : Bool) (ratio : F64) (d : SquareDuty) (sr : F64) (sq : Square) :
    (sqProcess bend ratio d sr sq).1 = pulse sq.phase d ∧
      (sqProcess bend ratio d sr sq).2.frequency = sq.frequency ∧
      inRange F64.zero F64.one (sqProcess bend ratio d sr sq).2.phase = true :=
  ⟨rfl, rfl, inRange_wrapUnit _⟩

/-- What an accepted tick's sample stage can answer: silence with nothing stepped, or the stepped
oscillator of the selected kind, or the index fault. -/
theorem sampleStage_cases {sr : F64} {s : State} {r : Nibble × State}
    (h : sampleStage sr s = .ok r) :
    (s.sw.clipped = true ∧ r = (NIB_ZERO, s)) ∨
    (s.sw.clipped = false ∧ s.par.OscType = .square ∧
      r = (pulse s.sq.phase s.par.SquareDuty,
        (sweepStage sr s).setSq (sqAdvance Config.sqBend s.wt.pitch_ratio sr
          { s.sq with frequency := (sweepStage sr s).vo.freq }))) ∨
    (s.sw.clipped = false ∧ s.par.OscType = .noise ∧
      r = (Config.noiseTable (noAdvance s.par.NoiseInterval sr s.no).index,
        (sweepStage sr s).setNo (noAdvance s.par.NoiseInterval sr s.no))) ∨
    (s.sw.clipped = false ∧ s.par.OscType = .wavetable ∧
      ∃ o, wtLookup s.wt = some o ∧
        r = (o, (sweepStage sr s).setWt (wtAdvance sr
          { s.wt with frequency := (sweepStage sr s).vo.freq }))) := by
  unfold sampleStage at h
  cases hc : s.sw.clipped with
  | true =>
    simp only [hc, if_true, Except.ok.injEq] at h
    exact .inl ⟨rfl, h.symm⟩
  | false =>
    simp only [hc, Bool.false_eq_true, if_false, oscillatorStage] at h
    have hp : (sweepStage sr s).par = s.par := rfl
    have hw : (sweepStage sr s).wt = s.wt := rfl
    rw [hp] at h
    right
    cases ho : s.par.OscType with
    | square =>
      simp only [ho, Except.ok.injEq] at h
      exact .inl ⟨rfl, rfl, h.symm⟩
    | noise =>
      simp only [ho, Except.ok.injEq] at h
      exact .inr (.inl ⟨rfl, rfl, h.symm⟩)
    | wavetable =>
      simp only [ho, hw] at h
      refine .inr (.inr ⟨rfl, rfl, ?_⟩)
      have hl : wtLookup { s.wt with frequency := (sweepStage sr s).vo.freq } = wtLookup s.wt := rfl
      unfold wtProcess at h
      rw [hl] at h
      cases hk : wtLookup s.wt with
      | none => simp [hk] at h
      | some o =>
        simp only [hk, Option.map_some, Except.ok.injEq] at h
        exact ⟨o, rfl, h.symm⟩

/-- What `PROCESS` can answer when it answers a next state: the rate was accepted, the sample stage had
a result, and the next state is the output stage's. -/
theorem execProcess_next {sr : F64} {s t : State} (h : execProcess sr s = .next t) :
    acceptedRate sr = true ∧ ∃ r, sampleStage sr s = .ok r ∧ t = outputStage sr r.1 r.2 := by
  unfold execProcess at h
  split at h
  · rename_i ha
    split at h
    · rename_i r hr
      exact ⟨ha, r, hr, by simpa using h.symm⟩
    · simp at h
  · simp at h

/-- Completion of the sample stage: while clipped, or with the square or the noise selected, always;
with the wavetable selected, when its phase is in range. -/
theorem sampleStage_ok (sr : F64) {s : State} (h : PhasesInRange s = true) :
    ∃ r, sampleStage sr s = .ok r := by
  unfold sampleStage
  split
  · exact ⟨_, rfl⟩
  · unfold oscillatorStage
    split
    · exact ⟨_, rfl⟩
    · exact ⟨_, rfl⟩
    · have hw : (sweepStage sr s).wt = s.wt := rfl
      have hp : inRange F64.zero wtLen s.wt.phase = true := by
        simp only [PhasesInRange, Bool.and_eq_true] at h; exact h.2
      obtain ⟨o, _, h2⟩ := wtProcess_of_inRange sr
        (wt := { s.wt with frequency := (sweepStage sr s).vo.freq }) hp
      rw [hw, h2]
      exact ⟨_, rfl⟩

end Sys2Proof.Machine
end

