-- ==== Sys2Proof/Laws/Units.lean ====
section
/-! SUPPORT. What the sweep, the envelope and the DAC can answer and what they leave alone. -/

-- One theorem at a time: many kernel evaluations at once each hold a thread and its stack.
set_option Elab.async false

namespace Sys2Proof.Machine

/-! ## Answers -/

/-- A result that is a number is answered with its own pattern, and nothing is drawn. -/
theorem respondReal_of_number {v : F64} (h : v.isNaN = false) (s : State) :
    respondReal v s = respond ((0#64) ++ v.bits) s := by
  simp [respondReal, bits64, h, respond, State.setResponse]

/-- The pattern of a NaN result is a NaN pattern, whatever was drawn (U9). -/
theorem isNaN_nanBits (n : Nat) : (F64.mk (nanBits n)).isNaN = true := by
  unfold nanBits
  split
  · assumption
  · decide +kernel

/-! ## Sweep (44_sweep.md) -/

/-- The clip check keeps the frequency and the timer, and the latch once set (R152). -/
theorem clipCheck_spec (sw : Sweep) :
    (clipCheck sw).shadow_freq = sw.shadow_freq ∧ (clipCheck sw).timer = sw.timer ∧
      (sw.clipped = true → (clipCheck sw).clipped = true) := by
  unfold clipCheck
  split <;> simp

/-- `sw.process` never clears the latch (R152). -/
theorem swProcess_keeps_clipped (par : Params) (sr : F64) {sw : Sweep} (h : sw.clipped = true) :
    (swProcess par sr sw).2.clipped = true := by
  unfold swProcess
  split
  · exact h
  · split
    · exact h
    · unfold swUpDown
      simp only [if_true]
      split
      · exact (clipCheck_spec _).2.2 h
      · exact h
    · unfold swUpDown
      simp only [Bool.false_eq_true, if_false]
      split
      · exact (clipCheck_spec _).2.2 h
      · exact h
    · exact (clipCheck_spec _).2.2 h

/-! ## Envelope (45_envelope.md) -/

/-- `env.leave()` writes the anchor and nothing else (R163). -/
theorem envLeave_spec (e : Envelope) :
    envLeave e =
      { e with last_state_value := if e.state.isSounding then e.value else e.last_state_value } := by
  unfold envLeave
  split <;> rfl

/-- What a note event does to the stutter: the event `StutterWhen` names arms it, the other disarms it
(R164, R165, R172). -/
theorem armAt_spec (ev : StutterWhen) (p : Params) (e : Envelope) :
    armAt ev p e =
      { e with
        stuttering :=
          if p.StutterWhen = ev then !p.StutterDepth.isNaN && !p.StutterDepth.isZero else false
        st_count := if p.StutterWhen = ev then 0 else e.st_count
        stutter_velocity := if p.StutterWhen = ev then F64.one else e.stutter_velocity } := by
  unfold armAt arm disarm
  rw [F64.ne_zero]
  split <;> rfl

/-- The registers of the note itself, which no sample tick writes (R164, R173). -/
def noteRegisters (e : Envelope) : F64 × Byte × Bool × Bool :=
  (e.velocity, e.note, e.note_on, e.note_valid)

theorem envLeave_noteRegisters (e : Envelope) :
    noteRegisters (envLeave e) = noteRegisters e := by rw [envLeave_spec]; rfl

theorem stutterTick_noteRegisters (par : Params) (e : Envelope) :
    noteRegisters (stutterTick par e) = noteRegisters e := by
  unfold stutterTick
  simp only []
  split
  · rfl
  · have := envLeave_noteRegisters
      { e with
        st_count := 0, stutter_velocity := stutterStepped e.stutter_velocity par.StutterDepth }
    exact this

theorem stutterStep_noteRegisters (par : Params) (sr : F64) (e : Envelope) :
    noteRegisters (stutterStep par sr e) = noteRegisters e := by
  unfold stutterStep
  split
  · simp only []
    split
    · exact stutterTick_noteRegisters _ _
    · rfl
  · rfl

theorem fsmStep_noteRegisters (par : Params) (sr : F64) (e : Envelope) :
    noteRegisters (fsmStep par sr e).2 = noteRegisters e := by
  unfold fsmStep
  simp only []
  split <;> first | rfl | (split <;> first | rfl | exact envLeave_noteRegisters e)

/-- A sample tick writes no register of the note. -/
theorem envAdvance_noteRegisters (par : Params) (sr : F64) (e : Envelope) :
    noteRegisters (envAdvance par sr e) = noteRegisters e :=
  (fsmStep_noteRegisters par sr (stutterStep par sr e)).trans (stutterStep_noteRegisters par sr e)

/-- An envelope that is not stuttering takes no stutter step (R173). -/
theorem stutterStep_of_not_stuttering (par : Params) (sr : F64) {e : Envelope}
    (h : e.stuttering = false) : stutterStep par sr e = e := by simp [stutterStep, h]

/-- When no stutter tick is due, the stutter step counts while armed and does nothing else (R173). -/
theorem stutterStep_of_not_due (par : Params) (sr : F64) {e : Envelope}
    (h : stutterDue par sr e = false) :
    stutterStep par sr e =
      { e with st_count := if e.stuttering then e.st_count + 1 else e.st_count } := by
  unfold stutterDue at h
  unfold stutterStep secondsOf
  cases hs : e.stuttering
  · simp only [Bool.false_eq_true, if_false]
    rw [← hs]
  · have hg : (((F64.real (e.st_count + 1 : Nat)).div sr).nz).gt par.StutterTime = false := by
      simpa [hs] using h
    simp only [if_true, hg, Bool.false_eq_true, if_false]

/-- When a stutter tick is due, it forces Off below the floor and retriggers Attack from it on
(R173). -/
theorem stutterStep_of_due (par : Params) (sr : F64) {e : Envelope}
    (h : stutterDue par sr e = true) :
    stutterStep par sr e =
      if (stutterStepped e.stutter_velocity par.StutterDepth).lt K.STUTTER_FLOOR then
        { e with
          st_count := 0, stutter_velocity := stutterStepped e.stutter_velocity par.StutterDepth
          state := .off, elapsed := 0, stuttering := false }
      else
        { e with
          st_count := 0, stutter_velocity := stutterStepped e.stutter_velocity par.StutterDepth
          last_state_value := if e.state.isSounding then e.value else e.last_state_value
          state := .attack, elapsed := 0, value := F64.zero } := by
  simp only [stutterDue, Bool.and_eq_true] at h
  unfold stutterStep stutterTick secondsOf
  simp only [h.1, h.2, if_true, envLeave_spec]

/-- A transition leaves the stutter's registers alone (R166). -/
theorem fsmStep_stutter (par : Params) (sr : F64) (e : Envelope) :
    (fsmStep par sr e).2.stuttering = e.stuttering ∧
      (fsmStep par sr e).2.st_count = e.st_count ∧
      (fsmStep par sr e).2.stutter_velocity = e.stutter_velocity := by
  unfold fsmStep
  simp only [envLeave_spec]
  split <;> first | exact ⟨rfl, rfl, rfl⟩ | (split <;> exact ⟨rfl, rfl, rfl⟩)

/-- A count of zero is zero seconds at every sample rate (R162). -/
@[simp] theorem secondsOf_zero (sr : F64) : secondsOf 0 sr = F64.zero := F64.nz_of_zero_div sr

/-- The stutter flag after a tick was set before it (R172: only arming sets it). -/
theorem envAdvance_stuttering (par : Params) (sr : F64) {e : Envelope}
    (h : (envAdvance par sr e).stuttering = true) : e.stuttering = true := by
  rw [show (envAdvance par sr e).stuttering = _ from (fsmStep_stutter par sr _).1] at h
  by_contra hn
  rw [stutterStep_of_not_stuttering par sr (by simpa using hn)] at h
  exact hn h

@[simp] theorem isFinite_envGain (e : Envelope) : (envGain e).isFinite = true := F64.isFinite_nz _

/-! ## Nibble (40_nibble.md) -/

theorem isFinite_toFloat (n : Nibble) : (toFloat n).isFinite = true := by
  revert n; decide +kernel

/-- Silence stays silence at every finite gain (R104). -/
theorem nibScale_zero_gain (n : Nibble) : nibScale n F64.zero = NIB_ZERO := by
  revert n; decide +kernel

/-! ## DAC (46_dac.md) -/

@[simp] theorem isFinite_dacOutput (x : F64) (d : Dac) : (dacOutput x d).isFinite = true :=
  F64.isFinite_nz _

/-- A recomputation writes the coefficients and clears the flag; the history stays (R192). -/
theorem dacRecompute_spec (par : Params) (sr : F64) (d : Dac) :
    (dacRecompute par sr d).dirty = false ∧ (dacRecompute par sr d).x1 = d.x1 ∧
      (dacRecompute par sr d).x2 = d.x2 ∧ (dacRecompute par sr d).y1 = d.y1 ∧
      (dacRecompute par sr d).y2 = d.y2 := by
  simp [dacRecompute]

/-- With the flag clear nothing is recomputed (R194). -/
theorem dacRefresh_of_clean (par : Params) (sr : F64) {d : Dac} (h : d.dirty = false) :
    dacRefresh par sr d = d := by simp [dacRefresh, h]

/-- After the first step of `dac.process` the flag is clear (R192, R194). -/
theorem dacRefresh_clean (par : Params) (sr : F64) (d : Dac) :
    (dacRefresh par sr d).dirty = false := by
  unfold dacRefresh
  split
  · exact (dacRecompute_spec par sr d).1
  · rename_i h; simpa using h

/-! ## The output stage of a tick -/

/-- Everything the output stage can do: the envelope and the DAC are stepped, the answer is the DAC's
output, a number, and nothing else changes (47_voice.md R210). -/
theorem outputStage_spec (sr : F64) (o : Nibble) (s : State) :
    outputStage sr o s =
      respond ((0#64) ++ (dacProcess s.par sr (nibScale o (envProcess s.par sr s.env).1) s.dac).1.bits)
        ((s.setEnv (envProcess s.par sr s.env).2).setDac
          (dacProcess s.par sr (nibScale o (envProcess s.par sr s.env).1) s.dac).2) :=
  respondReal_of_number (F64.isNaN_nz _) _

end Sys2Proof.Machine
end

