-- ==== Sys2Proof/Laws/Exec.lean ====
section
/-! SUPPORT. What a command that answers a next state has done: to the port (one lemma for all
commands), to each unit (one lemma for all commands but `PROCESS`, one for `PROCESS`). -/

namespace Sys2Proof.Machine

/-- What a command does to the port: the response is written, the commands waiting stay. A status other
than `OK` comes from an enumeration write, with no result and nothing else changed. -/
def PortEffect (i : Instr) (s t : State) : Prop :=
  ∃ st d, st ≠ .illegalCommand ∧
    t.port = { s.port with response := some (responseWord st d) } ∧
    (st ≠ .ok → d = 0 ∧ SameBlock s t ∧ t.draws = s.draws ∧
      ∃ v, i = .setParamOscType v ∨ i = .setParamSweepType v ∨ i = .setParamStutterWhen v ∨
        i = .setParamSquareDuty v)

/-- What a command other than `PROCESS` can do to each unit. -/
def UnitEffects (i : Instr) (s t : State) : Prop :=
  t.no = s.no ∧
  (t.sq = s.sq ∨ ∃ n v, i = .noteOn n v ∧ t.sq = { s.sq with frequency := pitch n }) ∧
  (t.vo = s.vo ∨ ∃ n v, i = .noteOn n v ∧ t.vo = { freq := pitch n }) ∧
  (t.wt = s.wt ∨ (∃ n v, i = .noteOn n v ∧ t.wt = { s.wt with frequency := pitch n }) ∨
    (∃ r, (i = .pitchBend r ∨
        ((∃ v, i = .setParamPitchBend v ∨ i = .setParamDetune v) ∧ r = ratioOf t.par)) ∧
      t.wt = { s.wt with pitch_ratio := r }) ∨
    (writesTable i ∧ t.wt = { s.wt with table := t.wt.table })) ∧
  (t.sw = s.sw ∨ (∃ n v, i = .noteOn n v ∧ t.sw = swReset (pitch n)) ∨
    ∃ f, i = .sweepReset f ∧ t.sw = swReset f) ∧
  (t.env = s.env ∨ (∃ n v, i = .noteOn n v ∧ t.env = envNoteOn n v s.par s.env) ∨
    ∃ n, i = .noteOff n ∧ t.env = envNoteOff s.par s.env) ∧
  (t.dac = s.dac ∨
    ((∃ v, i = .setParamDacFreq v ∨ i = .setParamDacQ v) ∧ t.dac = markDirty s.dac)) ∧
  (t.par = s.par ∨ isSetParam i)

@[simp] theorem statusField_responseWord (st : Status) (d : Data) :
    statusField (responseWord st d) = st.code := by
  refine BitVec.eq_of_getLsbD_eq fun i hi => ?_
  simp only [statusField, responseWord, BitVec.getLsbD_extractLsb', BitVec.getLsbD_append]
  rw [if_neg (by omega), show 128 + i - 128 = i by omega]
  simp [hi]

@[simp] theorem rdataField_responseWord (st : Status) (d : Data) :
    rdataField (responseWord st d) = d := by
  refine BitVec.eq_of_getLsbD_eq fun i hi => ?_
  simp only [rdataField, responseWord, BitVec.getLsbD_extractLsb', BitVec.getLsbD_append]
  rw [if_pos (by omega), show 0 + i = i by omega]
  simp [hi]

/-- A real result is answered with its pattern, a NaN with some NaN pattern (U9). -/
theorem respondReal_answer (v : F64) (s : State) :
    ∃ b, (respondReal v s).port =
        { s.port with response := some (responseWord .ok ((0#64) ++ b)) } ∧
      (v.isNaN = false → b = v.bits) ∧ (v.isNaN = true → (F64.mk b).isNaN = true) := by
  refine ⟨bits64 s.draws v, rfl, ?_, ?_⟩
  · intro h; simp [bits64, h]
  · intro h; simp only [bits64, h, if_true]; exact isNaN_nanBits _

/-- A real result changes nothing of the block. -/
theorem respondReal_sameBlock (v : F64) (s : State) : SameBlock s (respondReal v s) :=
  ⟨rfl, rfl, rfl, rfl, rfl, rfl, rfl, rfl⟩

/-- What an enumeration write can answer (R211, R250). -/
theorem storeCode_cases {α : Type} {c : Option α} {w : α → Params} {s t : State}
    (h : storeCode c w s = .next t) :
    (∃ k, c = some k ∧ t = done (s.setPar (w k))) ∨ (c = none ∧ t = raise .notRepresentable s) := by
  cases c <;> simp [storeCode, storeParam] at h <;> subst h <;> simp

/-- What `PROCESS` can do when it answers a next state: the output stage on the sample `o` and the
state `u` that sweep and oscillator left (47_voice.md R210). -/
theorem process_cases {sr : F64} {s t : State} (h : exec (.process sr) s = .next t) :
    acceptedRate sr = true ∧ ∃ o u, t = finishTick sr o u ∧ u.par = s.par ∧ u.env = s.env ∧
      u.dac = s.dac ∧ u.port = s.port ∧ u.draws = s.draws ∧
      ((s.sw.clipped = true ∧ o = NIB_ZERO ∧ u = s) ∨
        (s.sw.clipped = false ∧ u.sw = (swProcess s.par sr s.sw).2 ∧
          u.vo.freq = s.vo.freq.add (swProcess s.par sr s.sw).1 ∧
          ((s.par.OscType = .square ∧ o = pulse s.sq.phase s.par.SquareDuty ∧
              u.sq = sqAdvance Config.sqBend s.wt.pitch_ratio sr
                { s.sq with frequency := u.vo.freq } ∧ u.no = s.no ∧ u.wt = s.wt) ∨
            (s.par.OscType = .noise ∧ u.no = noAdvance s.par.NoiseInterval sr s.no ∧
              u.sq = s.sq ∧ u.wt = s.wt) ∨
            (s.par.OscType = .wavetable ∧
              u.wt = wtAdvance sr { s.wt with frequency := u.vo.freq } ∧ u.sq = s.sq ∧
              u.no = s.no)))) := by
  obtain ⟨ha, r, hr, ht⟩ := execProcess_next h
  refine ⟨ha, r.1, r.2, ?_, ?_⟩
  · rw [ht, outputStage_spec]; rfl
  rcases sampleStage_cases hr with ⟨hc, h⟩ | ⟨hc, ho, h⟩ | ⟨hc, ho, h⟩ | ⟨hc, ho, o, hl, h⟩ <;> rw [h]
  · exact ⟨rfl, rfl, rfl, rfl, rfl, .inl ⟨hc, rfl, rfl⟩⟩
  · exact ⟨rfl, rfl, rfl, rfl, rfl, .inr ⟨hc, rfl, rfl, .inl ⟨ho, rfl, rfl, rfl, rfl⟩⟩⟩
  · exact ⟨rfl, rfl, rfl, rfl, rfl, .inr ⟨hc, rfl, rfl, .inr (.inl ⟨ho, rfl, rfl, rfl⟩)⟩⟩
  · exact ⟨rfl, rfl, rfl, rfl, rfl, .inr ⟨hc, rfl, rfl, .inr (.inr ⟨ho, rfl, rfl, rfl⟩)⟩⟩

/-- What every command does to the port (30_encoding.md R84, 60_exceptions.md R252). -/
theorem exec_port {i : Instr} {s t : State} (h : exec i s = .next t) : PortEffect i s t := by
  have ok : ∀ d, t.port = { s.port with response := some (responseWord .ok d) } →
      PortEffect i s t := fun d hd => ⟨.ok, d, by simp, hd, by simp⟩
  have load : ∀ v : F64, Host.Outcome.next (respondReal v s) = (.next t : Answer) →
      PortEffect i s t := by
    intro v h
    simp only [Host.Outcome.next.injEq] at h
    subst h
    obtain ⟨b, hb, _⟩ := respondReal_answer v s
    exact ok _ hb
  have code : ∀ {α : Type} (c : Option α) (w : α → Params), storeCode c w s = .next t →
      (∃ v, i = .setParamOscType v ∨ i = .setParamSweepType v ∨ i = .setParamStutterWhen v ∨
        i = .setParamSquareDuty v) → PortEffect i s t := by
    intro α c w h hi
    rcases storeCode_cases h with ⟨k, _, ht⟩ | ⟨_, ht⟩
    · exact ok 0 (by rw [ht]; rfl)
    · subst ht
      exact ⟨.notRepresentable, 0, by simp, rfl,
        fun _ => ⟨rfl, ⟨rfl, rfl, rfl, rfl, rfl, rfl, rfl, rfl⟩, rfl, hi⟩⟩
  cases i
  case process sr =>
    obtain ⟨_, o, u, ht, _, _, _, hp, _⟩ := process_cases h
    exact ok _ (by rw [ht, ← hp]; rfl)
  case setParamOscType v => exact code _ _ h ⟨v, by simp⟩
  case setParamSweepType v => exact code _ _ h ⟨v, by simp⟩
  case setParamStutterWhen v => exact code _ _ h ⟨v, by simp⟩
  case setParamSquareDuty v => exact code _ _ h ⟨v, by simp⟩
  case getWavetable => exact ok (packTable s.wt.table) (by cases h; rfl)
  case queryAssignable n => exact ok ((0#127) ++ flagBit (assignable n s.par s.env)) (by cases h; rfl)
  case getStatus => exact ok (statusView s.env s.sw.clipped s.dac.dirty) (by cases h; rfl)
  all_goals first
    | (simp only [exec, execNoteOn, execNoteOff, execPitchBend, execSweepReset, execSetWtSample,
        execResetWtSine, execResetWtRandom, execSetParamMasterVolume, execSetParamPitchBend,
        execSetParamDetune, execSetParamSweepAmount, execSetParamSweepPeriod,
        execSetParamStutterTime, execSetParamStutterDepth, execSetParamEgAttack,
        execSetParamEgDecay, execSetParamEgSustain, execSetParamEgRelease,
        execSetParamNoiseInterval, execSetParamDacFreq, execSetParamDacQ, storeParam, storeOffset,
        storeDac, execSetWavetable, Host.Outcome.next.injEq] at h
       subst h
       exact ok _ rfl)
    | exact load _ h

/-- Everything a command other than `PROCESS` can do to the units. -/
theorem exec_units {i : Instr} {s t : State} (h : exec i s = .next t)
    (hp : ∀ sr, i ≠ .process sr) : UnitEffects i s t := by
  have load : ∀ (v : F64), Host.Outcome.next (respondReal v s) = (.next t : Answer) → SameBlock s t := by
    intro v h
    simp only [Host.Outcome.next.injEq] at h
    subst h
    exact respondReal_sameBlock _ _
  have same : SameBlock s t → UnitEffects i s t := by
    rintro ⟨a, b, c, d, e, f, g, h⟩
    exact ⟨b, .inl a, .inl g, .inl c, .inl d, .inl e, .inl f, .inl h⟩
  have code : ∀ {α : Type} (c : Option α) (w : α → Params), storeCode c w s = .next t →
      isSetParam i → UnitEffects i s t := by
    intro α c w h hi
    rcases storeCode_cases h with ⟨k, _, ht⟩ | ⟨_, ht⟩ <;> subst ht <;>
      exact ⟨rfl, .inl rfl, .inl rfl, .inl rfl, .inl rfl, .inl rfl, .inl rfl, .inr hi⟩
  have setp : ∀ c ∈ allSetters, ∀ v, isSetParam (c v) := fun c hc v => ⟨c, hc, v, rfl⟩
  cases i
  case process sr => exact absurd rfl (hp sr)
  case setParamOscType v => exact code _ _ h ⟨.setParamOscType, by simp [allSetters], v, rfl⟩
  case setParamSweepType v => exact code _ _ h ⟨.setParamSweepType, by simp [allSetters], v, rfl⟩
  case setParamStutterWhen v => exact code _ _ h ⟨.setParamStutterWhen, by simp [allSetters], v, rfl⟩
  case setParamSquareDuty v => exact code _ _ h ⟨.setParamSquareDuty, by simp [allSetters], v, rfl⟩
  case noteOn n v =>
    simp only [exec, execNoteOn, Host.Outcome.next.injEq] at h
    subst h
    exact ⟨rfl, .inr ⟨n, v, rfl, rfl⟩, .inr ⟨n, v, rfl, rfl⟩, .inr (.inl ⟨n, v, rfl, rfl⟩),
      .inr (.inl ⟨n, v, rfl, rfl⟩), .inr (.inl ⟨n, v, rfl, rfl⟩), .inl rfl, .inl rfl⟩
  case noteOff n =>
    simp only [exec, execNoteOff, Host.Outcome.next.injEq] at h
    subst h
    exact ⟨rfl, .inl rfl, .inl rfl, .inl rfl, .inl rfl, .inr (.inr ⟨n, rfl, rfl⟩), .inl rfl,
      .inl rfl⟩
  case pitchBend r =>
    simp only [exec, execPitchBend, Host.Outcome.next.injEq] at h
    subst h
    exact ⟨rfl, .inl rfl, .inl rfl, .inr (.inr (.inl ⟨r, .inl rfl, rfl⟩)), .inl rfl, .inl rfl,
      .inl rfl, .inl rfl⟩
  case setParamPitchBend v =>
    simp only [exec, execSetParamPitchBend, storeOffset, Host.Outcome.next.injEq] at h
    subst h
    exact ⟨rfl, .inl rfl, .inl rfl, .inr (.inr (.inl ⟨_, .inr ⟨⟨v, .inl rfl⟩, rfl⟩, rfl⟩)),
      .inl rfl, .inl rfl, .inl rfl, .inr ⟨.setParamPitchBend, by simp [allSetters], v, rfl⟩⟩
  case setParamDetune v =>
    simp only [exec, execSetParamDetune, storeOffset, Host.Outcome.next.injEq] at h
    subst h
    exact ⟨rfl, .inl rfl, .inl rfl, .inr (.inr (.inl ⟨_, .inr ⟨⟨v, .inr rfl⟩, rfl⟩, rfl⟩)),
      .inl rfl, .inl rfl, .inl rfl, .inr ⟨.setParamDetune, by simp [allSetters], v, rfl⟩⟩
  case setParamDacFreq v =>
    simp only [exec, execSetParamDacFreq, storeDac, Host.Outcome.next.injEq] at h
    subst h
    exact ⟨rfl, .inl rfl, .inl rfl, .inl rfl, .inl rfl, .inl rfl, .inr ⟨⟨v, .inl rfl⟩, rfl⟩,
      .inr ⟨.setParamDacFreq, by simp [allSetters], v, rfl⟩⟩
  case setParamDacQ v =>
    simp only [exec, execSetParamDacQ, storeDac, Host.Outcome.next.injEq] at h
    subst h
    exact ⟨rfl, .inl rfl, .inl rfl, .inl rfl, .inl rfl, .inl rfl, .inr ⟨⟨v, .inr rfl⟩, rfl⟩,
      .inr ⟨.setParamDacQ, by simp [allSetters], v, rfl⟩⟩
  case sweepReset f =>
    simp only [exec, execSweepReset, Host.Outcome.next.injEq] at h
    subst h
    exact ⟨rfl, .inl rfl, .inl rfl, .inl rfl, .inr (.inr ⟨f, rfl, rfl⟩), .inl rfl, .inl rfl,
      .inl rfl⟩
  case setWtSample a b =>
    simp only [exec, execSetWtSample, Host.Outcome.next.injEq] at h
    subst h
    exact ⟨rfl, .inl rfl, .inl rfl, .inr (.inr (.inr ⟨.inl ⟨a, b, rfl⟩, rfl⟩)), .inl rfl,
      .inl rfl, .inl rfl, .inl rfl⟩
  case setWavetable a =>
    simp only [exec, execSetWavetable, Host.Outcome.next.injEq] at h
    subst h
    exact ⟨rfl, .inl rfl, .inl rfl, .inr (.inr (.inr ⟨.inr (.inl ⟨a, rfl⟩), rfl⟩)), .inl rfl,
      .inl rfl, .inl rfl, .inl rfl⟩
  case resetWtSine =>
    simp only [exec, execResetWtSine, Host.Outcome.next.injEq] at h
    subst h
    exact ⟨rfl, .inl rfl, .inl rfl, .inr (.inr (.inr ⟨.inr (.inr (.inl rfl)), rfl⟩)), .inl rfl,
      .inl rfl, .inl rfl, .inl rfl⟩
  case resetWtRandom =>
    simp only [exec, execResetWtRandom, Host.Outcome.next.injEq] at h
    subst h
    exact ⟨rfl, .inl rfl, .inl rfl, .inr (.inr (.inr ⟨.inr (.inr (.inr rfl)), rfl⟩)), .inl rfl,
      .inl rfl, .inl rfl, .inl rfl⟩
  case getWavetable =>
    simp only [exec, execGetWavetable, Host.Outcome.next.injEq] at h
    subst h
    exact same ⟨rfl, rfl, rfl, rfl, rfl, rfl, rfl, rfl⟩
  case getStatus =>
    simp only [exec, execGetStatus, Host.Outcome.next.injEq] at h
    subst h
    exact same ⟨rfl, rfl, rfl, rfl, rfl, rfl, rfl, rfl⟩
  case queryAssignable =>
    simp only [exec, execQueryAssignable, Host.Outcome.next.injEq] at h
    subst h
    exact same ⟨rfl, rfl, rfl, rfl, rfl, rfl, rfl, rfl⟩
  all_goals first
    | exact same (load _ h)
    | (simp only [exec, execSetParamMasterVolume, execSetParamSweepAmount,
        execSetParamSweepPeriod, execSetParamStutterTime, execSetParamStutterDepth,
        execSetParamEgAttack, execSetParamEgDecay, execSetParamEgSustain, execSetParamEgRelease,
        execSetParamNoiseInterval, storeParam, Host.Outcome.next.injEq] at h
       subst h
       exact ⟨rfl, .inl rfl, .inl rfl, .inl rfl, .inl rfl, .inl rfl, .inl rfl,
         .inr (setp _ (by simp [allSetters]) _)⟩)

end Sys2Proof.Machine
end

