-- ==== Sys2Proof/Laws/PerInstr.lean ====
section
/-! SUPPORT. Statements made per command. Family `OpcodeRow`: the word of a command lies in the
command's row of the opcode table (30_encoding.md R85): its `op` field is the row's opcode, and for
`SET_PARAM` and `GET_PARAM` its `idx` field is the row's parameter id. -/

namespace Sys2Proof.Laws

/-- The opcode of a command's row and, where the row fixes it, the parameter id
(spec/opcode_table.json). -/
def OpcodeRow.row : Instr → Byte × Option Byte
  | .noteOn _ _ => (0x01, none)
  | .noteOff _ => (0x02, none)
  | .pitchBend _ => (0x03, none)
  | .sweepReset _ => (0x04, none)
  | .setWtSample _ _ => (0x05, none)
  | .resetWtSine => (0x06, none)
  | .resetWtRandom => (0x07, none)
  | .setParamMasterVolume _ => (0x08, some 0x00)
  | .setParamPitchBend _ => (0x08, some 0x01)
  | .setParamDetune _ => (0x08, some 0x02)
  | .setParamOscType _ => (0x08, some 0x03)
  | .setParamSweepType _ => (0x08, some 0x04)
  | .setParamSweepAmount _ => (0x08, some 0x05)
  | .setParamSweepPeriod _ => (0x08, some 0x06)
  | .setParamStutterTime _ => (0x08, some 0x07)
  | .setParamStutterDepth _ => (0x08, some 0x08)
  | .setParamStutterWhen _ => (0x08, some 0x09)
  | .setParamEgAttack _ => (0x08, some 0x0A)
  | .setParamEgDecay _ => (0x08, some 0x0B)
  | .setParamEgSustain _ => (0x08, some 0x0C)
  | .setParamEgRelease _ => (0x08, some 0x0D)
  | .setParamSquareDuty _ => (0x08, some 0x0E)
  | .setParamNoiseInterval _ => (0x08, some 0x0F)
  | .setParamDacFreq _ => (0x08, some 0x10)
  | .setParamDacQ _ => (0x08, some 0x11)
  | .getParamMasterVolume => (0x09, some 0x00)
  | .getParamPitchBend => (0x09, some 0x01)
  | .getParamDetune => (0x09, some 0x02)
  | .getParamOscType => (0x09, some 0x03)
  | .getParamSweepType => (0x09, some 0x04)
  | .getParamSweepAmount => (0x09, some 0x05)
  | .getParamSweepPeriod => (0x09, some 0x06)
  | .getParamStutterTime => (0x09, some 0x07)
  | .getParamStutterDepth => (0x09, some 0x08)
  | .getParamStutterWhen => (0x09, some 0x09)
  | .getParamEgAttack => (0x09, some 0x0A)
  | .getParamEgDecay => (0x09, some 0x0B)
  | .getParamEgSustain => (0x09, some 0x0C)
  | .getParamEgRelease => (0x09, some 0x0D)
  | .getParamSquareDuty => (0x09, some 0x0E)
  | .getParamNoiseInterval => (0x09, some 0x0F)
  | .getParamDacFreq => (0x09, some 0x10)
  | .getParamDacQ => (0x09, some 0x11)
  | .process _ => (0x0A, none)
  | .getWavetable => (0x0B, none)
  | .setWavetable _ => (0x0C, none)
  | .queryAssignable _ => (0x0D, none)
  | .getStatus => (0x0E, none)

/-- The word of `i` lies in the row of `i`. -/
def OpcodeRow.Statement (i : Instr) : Prop :=
  opField (encode i) = (OpcodeRow.row i).1 ∧
    ∀ id, (OpcodeRow.row i).2 = some id → idxField (encode i) = id

/-- A word whose row fixes no parameter id. -/
theorem OpcodeRow.of_opcode {i : Instr} (op idx : Byte) (d : Data)
    (he : encode i = commandWord op idx d) (hr : OpcodeRow.row i = (op, none)) :
    OpcodeRow.Statement i := by
  unfold OpcodeRow.Statement
  rw [he, hr]
  simp

/-- A word whose row fixes the parameter id. -/
theorem OpcodeRow.of_param {i : Instr} (op id : Byte) (d : Data)
    (he : encode i = commandWord op id d) (hr : OpcodeRow.row i = (op, some id)) :
    OpcodeRow.Statement i := by
  unfold OpcodeRow.Statement
  rw [he, hr]
  simp

theorem OpcodeRow.noteOn (note : Byte) (velocity : F64) : OpcodeRow.Statement (.noteOn note velocity) :=
  OpcodeRow.of_opcode _ _ _ rfl rfl

theorem OpcodeRow.noteOff (note : Byte) : OpcodeRow.Statement (.noteOff note) :=
  OpcodeRow.of_opcode _ _ _ rfl rfl

theorem OpcodeRow.pitchBend (ratio : F64) : OpcodeRow.Statement (.pitchBend ratio) :=
  OpcodeRow.of_opcode _ _ _ rfl rfl

theorem OpcodeRow.sweepReset (freq : F64) : OpcodeRow.Statement (.sweepReset freq) :=
  OpcodeRow.of_opcode _ _ _ rfl rfl

theorem OpcodeRow.setWtSample (idx : Byte) (value : Nibble) : OpcodeRow.Statement (.setWtSample idx value) :=
  OpcodeRow.of_opcode _ _ _ rfl rfl

theorem OpcodeRow.resetWtSine : OpcodeRow.Statement (.resetWtSine) :=
  OpcodeRow.of_opcode _ _ _ rfl rfl

theorem OpcodeRow.resetWtRandom : OpcodeRow.Statement (.resetWtRandom) :=
  OpcodeRow.of_opcode _ _ _ rfl rfl

theorem OpcodeRow.setParamMasterVolume (value : F64) : OpcodeRow.Statement (.setParamMasterVolume value) :=
  OpcodeRow.of_param _ _ _ rfl rfl

theorem OpcodeRow.setParamPitchBend (value : F64) : OpcodeRow.Statement (.setParamPitchBend value) :=
  OpcodeRow.of_param _ _ _ rfl rfl

theorem OpcodeRow.setParamDetune (value : F64) : OpcodeRow.Statement (.setParamDetune value) :=
  OpcodeRow.of_param _ _ _ rfl rfl

theorem OpcodeRow.setParamOscType (value : F64) : OpcodeRow.Statement (.setParamOscType value) :=
  OpcodeRow.of_param _ _ _ rfl rfl

theorem OpcodeRow.setParamSweepType (value : F64) : OpcodeRow.Statement (.setParamSweepType value) :=
  OpcodeRow.of_param _ _ _ rfl rfl

theorem OpcodeRow.setParamSweepAmount (value : F64) : OpcodeRow.Statement (.setParamSweepAmount value) :=
  OpcodeRow.of_param _ _ _ rfl rfl

theorem OpcodeRow.setParamSweepPeriod (value : F64) : OpcodeRow.Statement (.setParamSweepPeriod value) :=
  OpcodeRow.of_param _ _ _ rfl rfl

theorem OpcodeRow.setParamStutterTime (value : F64) : OpcodeRow.Statement (.setParamStutterTime value) :=
  OpcodeRow.of_param _ _ _ rfl rfl

theorem OpcodeRow.setParamStutterDepth (value : F64) : OpcodeRow.Statement (.setParamStutterDepth value) :=
  OpcodeRow.of_param _ _ _ rfl rfl

theorem OpcodeRow.setParamStutterWhen (value : F64) : OpcodeRow.Statement (.setParamStutterWhen value) :=
  OpcodeRow.of_param _ _ _ rfl rfl

theorem OpcodeRow.setParamEgAttack (value : F64) : OpcodeRow.Statement (.setParamEgAttack value) :=
  OpcodeRow.of_param _ _ _ rfl rfl

theorem OpcodeRow.setParamEgDecay (value : F64) : OpcodeRow.Statement (.setParamEgDecay value) :=
  OpcodeRow.of_param _ _ _ rfl rfl

theorem OpcodeRow.setParamEgSustain (value : F64) : OpcodeRow.Statement (.setParamEgSustain value) :=
  OpcodeRow.of_param _ _ _ rfl rfl

theorem OpcodeRow.setParamEgRelease (value : F64) : OpcodeRow.Statement (.setParamEgRelease value) :=
  OpcodeRow.of_param _ _ _ rfl rfl

theorem OpcodeRow.setParamSquareDuty (value : F64) : OpcodeRow.Statement (.setParamSquareDuty value) :=
  OpcodeRow.of_param _ _ _ rfl rfl

theorem OpcodeRow.setParamNoiseInterval (value : F64) : OpcodeRow.Statement (.setParamNoiseInterval value) :=
  OpcodeRow.of_param _ _ _ rfl rfl

theorem OpcodeRow.setParamDacFreq (value : F64) : OpcodeRow.Statement (.setParamDacFreq value) :=
  OpcodeRow.of_param _ _ _ rfl rfl

theorem OpcodeRow.setParamDacQ (value : F64) : OpcodeRow.Statement (.setParamDacQ value) :=
  OpcodeRow.of_param _ _ _ rfl rfl

theorem OpcodeRow.getParamMasterVolume : OpcodeRow.Statement (.getParamMasterVolume) :=
  OpcodeRow.of_param _ _ _ rfl rfl

theorem OpcodeRow.getParamPitchBend : OpcodeRow.Statement (.getParamPitchBend) :=
  OpcodeRow.of_param _ _ _ rfl rfl

theorem OpcodeRow.getParamDetune : OpcodeRow.Statement (.getParamDetune) :=
  OpcodeRow.of_param _ _ _ rfl rfl

theorem OpcodeRow.getParamOscType : OpcodeRow.Statement (.getParamOscType) :=
  OpcodeRow.of_param _ _ _ rfl rfl

theorem OpcodeRow.getParamSweepType : OpcodeRow.Statement (.getParamSweepType) :=
  OpcodeRow.of_param _ _ _ rfl rfl

theorem OpcodeRow.getParamSweepAmount : OpcodeRow.Statement (.getParamSweepAmount) :=
  OpcodeRow.of_param _ _ _ rfl rfl

theorem OpcodeRow.getParamSweepPeriod : OpcodeRow.Statement (.getParamSweepPeriod) :=
  OpcodeRow.of_param _ _ _ rfl rfl

theorem OpcodeRow.getParamStutterTime : OpcodeRow.Statement (.getParamStutterTime) :=
  OpcodeRow.of_param _ _ _ rfl rfl

theorem OpcodeRow.getParamStutterDepth : OpcodeRow.Statement (.getParamStutterDepth) :=
  OpcodeRow.of_param _ _ _ rfl rfl

theorem OpcodeRow.getParamStutterWhen : OpcodeRow.Statement (.getParamStutterWhen) :=
  OpcodeRow.of_param _ _ _ rfl rfl

theorem OpcodeRow.getParamEgAttack : OpcodeRow.Statement (.getParamEgAttack) :=
  OpcodeRow.of_param _ _ _ rfl rfl

theorem OpcodeRow.getParamEgDecay : OpcodeRow.Statement (.getParamEgDecay) :=
  OpcodeRow.of_param _ _ _ rfl rfl

theorem OpcodeRow.getParamEgSustain : OpcodeRow.Statement (.getParamEgSustain) :=
  OpcodeRow.of_param _ _ _ rfl rfl

theorem OpcodeRow.getParamEgRelease : OpcodeRow.Statement (.getParamEgRelease) :=
  OpcodeRow.of_param _ _ _ rfl rfl

theorem OpcodeRow.getParamSquareDuty : OpcodeRow.Statement (.getParamSquareDuty) :=
  OpcodeRow.of_param _ _ _ rfl rfl

theorem OpcodeRow.getParamNoiseInterval : OpcodeRow.Statement (.getParamNoiseInterval) :=
  OpcodeRow.of_param _ _ _ rfl rfl

theorem OpcodeRow.getParamDacFreq : OpcodeRow.Statement (.getParamDacFreq) :=
  OpcodeRow.of_param _ _ _ rfl rfl

theorem OpcodeRow.getParamDacQ : OpcodeRow.Statement (.getParamDacQ) :=
  OpcodeRow.of_param _ _ _ rfl rfl

theorem OpcodeRow.process (sr : F64) : OpcodeRow.Statement (.process sr) :=
  OpcodeRow.of_opcode _ _ _ rfl rfl

theorem OpcodeRow.getWavetable : OpcodeRow.Statement (.getWavetable) :=
  OpcodeRow.of_opcode _ _ _ rfl rfl

theorem OpcodeRow.setWavetable (table : Vector Nibble WT_LEN) : OpcodeRow.Statement (.setWavetable table) :=
  OpcodeRow.of_opcode _ _ _ rfl rfl

theorem OpcodeRow.queryAssignable (note : Byte) : OpcodeRow.Statement (.queryAssignable note) :=
  OpcodeRow.of_opcode _ _ _ rfl rfl

theorem OpcodeRow.getStatus : OpcodeRow.Statement (.getStatus) :=
  OpcodeRow.of_opcode _ _ _ rfl rfl

end Sys2Proof.Laws
end

