-- ==== Sys2Proof/Tests/Slice0.lean ====
section
/-! SUPPORT. Tests of the model against the spec's own examples (spec/95_test_vectors.md, V- and
P-numbers, and the examples of the rules), the smoke tests of WellFormed, and for every obligation
with hypotheses a witness that meets them. -/

-- One theorem at a time: many kernel evaluations at once each hold a thread and its stack.
set_option Elab.async false

namespace Sys2Proof.Tests

open Sys2Proof.Machine

/-! ## Helpers -/

/-- A completed answer whose state has the property. -/
def answers (o : Answer) (p : State → Bool) : Bool :=
  match o with
  | .next t => p t
  | .fault _ => false
  | .refused _ => false

theorem exists_of_answers {o : Answer} {p : State → Bool} (h : answers o p = true) :
    ∃ t, o = .next t ∧ p t = true := by
  cases o with
  | next t => exact ⟨t, rfl, h⟩
  | fault f => cases h
  | refused r => cases h

/-- The response on the port. -/
def answered (st : Status) (d : Data) (t : State) : Bool :=
  t.port.response == some (responseWord st d)

/-- A `real` by its pattern. -/
def f (b : BitVec 64) : F64 := ⟨b⟩

/-- An integer as a `real`. -/
def r (n : Int) : F64 := F64.real n

def half : F64 := f 0x3FE0000000000000
def quarter : F64 := f 0x3FD0000000000000
def threeQuarters : F64 := f 0x3FE8000000000000
def eighth : F64 := f 0x3FC0000000000000

/-- The parameters of the programs' prologue (part 3). -/
def prologue : Params :=
  { Params.reset with
    MasterVolume := F64.one, EgSustain := F64.one, EgRelease := f 0x3FB999999999999A
    SquareDuty := .d50, DacFreq := r 22000, DacQ := f 0x3FE6A09E667F3BCD }

/-- A state after launch with the given parameters. -/
def launched (p : Params) : State := State.launch (Vector.replicate WT_LEN 0) p

/-- An envelope in a given state. -/
def envIn (st : EnvState) (elapsed : Nat) (anchor value : F64) : Envelope :=
  { State.reset.env with
    state := st, elapsed := elapsed, last_state_value := anchor, value := value
    velocity := F64.one, note := 60, note_valid := true, note_on := true }

/-- A voice sounding in a given envelope state. -/
def sounding (p : Params) (st : EnvState) (value : F64) : State :=
  { launched p with env := envIn st 3 F64.one value }

/-- A state with one command word on the port. -/
def presenting (w : CommandWord) : State := State.reset.setCommands [w]

/-! ## Well-formedness: a NaN operand is one value, and another NaN pattern is none -/

def otherNaN : F64 := f 0x7FF8000000000001

theorem test_wf_refuses_other_nan :
    (([.noteOn 60 otherNaN, .pitchBend otherNaN, .sweepReset otherNaN, .process otherNaN] :
      List Instr) ++ allSetters.map (fun c => c otherNaN)).all (fun i => !i.wf) = true := by decide +kernel

theorem test_wf_accepts_values :
    ([.noteOn 255 F64.nan, .pitchBend (F64.inf true), .setWtSample 255 8, .noteOff 0, .getStatus,
      .process F64.zero, .setParamDacQ F64.nan] : List Instr).all Instr.wf = true := by
  decide +kernel

/-! ## Decoding (V70, V71, the prologue, P4): words written out in the spec -/

theorem test_decode_events :
    decode 0x013C00000000000000003FE0000000000000 = .ok (.noteOn 60 half) ∧
    decode 0x024500000000000000000000000000000000 = .ok (.noteOff 69) ∧
    decode 0x030000000000000000004000000000000000 = .ok (.pitchBend (r 2)) ∧
    decode 0x04000000000000000000407B800000000000 = .ok (.sweepReset (r 440)) := by decide +kernel

theorem test_decode_table_commands :
    decode 0x051F00000000000000000000000000000008 = .ok (.setWtSample 31 (BitVec.ofInt 4 (-8))) ∧
    decode 0x060000000000000000000000000000000000 = .ok .resetWtSine ∧
    decode 0x070000000000000000000000000000000000 = .ok .resetWtRandom ∧
    decode 0x0B0000000000000000000000000000000000 = .ok .getWavetable ∧
    decode 0x0C000000000000000000000000000000000F =
      .ok (.setWavetable ((Vector.replicate WT_LEN 0).set 0 (BitVec.ofInt 4 (-1)))) := by
  decide +kernel

theorem test_decode_tick_and_queries :
    decode 0x0A00000000000000000040E5888000000000 = .ok (.process (r 44100)) ∧
    decode 0x0D3C00000000000000000000000000000000 = .ok (.queryAssignable 60) ∧
    decode 0x0EFFFFFFFFFFFFFFFFFFFFFFFFFFFFFFFFFF = .ok .getStatus := by decide +kernel

theorem test_decode_set_param_first :
    decode 0x080000000000000000003FF0000000000000 = .ok (.setParamMasterVolume F64.one) ∧
    decode 0x080100000000000000004028000000000000 = .ok (.setParamPitchBend (r 12)) ∧
    decode 0x08020000000000000000C028000000000000 = .ok (.setParamDetune (r (-12))) ∧
    decode 0x080300000000000000004000000000000000 = .ok (.setParamOscType (r 2)) ∧
    decode 0x08040000000000000000BFF0000000000000 = .ok (.setParamSweepType (r (-1))) ∧
    decode 0x080500000000000000004020333333333333 = .ok (.setParamSweepAmount K.SWEEP_BIAS) ∧
    decode 0x080600000000000000004060000000000000 = .ok (.setParamSweepPeriod (r 128)) ∧
    decode 0x080700000000000000003FD0000000000000 = .ok (.setParamStutterTime quarter) ∧
    decode 0x080800000000000000004052C00000000000 = .ok (.setParamStutterDepth (r 75)) := by
  decide +kernel

theorem test_decode_set_param_last :
    decode 0x080900000000000000003FF0000000000000 = .ok (.setParamStutterWhen F64.one) ∧
    decode 0x080A00000000000000000000000000000000 = .ok (.setParamEgAttack F64.zero) ∧
    decode 0x080B00000000000000000000000000000000 = .ok (.setParamEgDecay F64.zero) ∧
    decode 0x080C00000000000000003FF0000000000000 = .ok (.setParamEgSustain F64.one) ∧
    decode 0x080D00000000000000003FB999999999999A =
      .ok (.setParamEgRelease (f 0x3FB999999999999A)) ∧
    decode 0x080E00000000000000004000000000000000 = .ok (.setParamSquareDuty (r 2)) ∧
    decode 0x080F00000000000000003FF0000000000000 = .ok (.setParamNoiseInterval F64.one) ∧
    decode 0x0810000000000000000040D57C0000000000 = .ok (.setParamDacFreq (r 22000)) ∧
    decode 0x081100000000000000003FE6A09E667F3BCD =
      .ok (.setParamDacQ (f 0x3FE6A09E667F3BCD)) := by decide +kernel

theorem test_decode_get_param :
    decode 0x090000000000000000000000000000000000 = .ok .getParamMasterVolume ∧
    decode 0x090100000000000000000000000000000000 = .ok .getParamPitchBend ∧
    decode 0x090200000000000000000000000000000000 = .ok .getParamDetune ∧
    decode 0x090300000000000000000000000000000000 = .ok .getParamOscType ∧
    decode 0x090400000000000000000000000000000000 = .ok .getParamSweepType ∧
    decode 0x090500000000000000000000000000000000 = .ok .getParamSweepAmount ∧
    decode 0x090600000000000000000000000000000000 = .ok .getParamSweepPeriod ∧
    decode 0x090700000000000000000000000000000000 = .ok .getParamStutterTime ∧
    decode 0x090800000000000000000000000000000000 = .ok .getParamStutterDepth ∧
    decode 0x090900000000000000000000000000000000 = .ok .getParamStutterWhen ∧
    decode 0x090A00000000000000000000000000000000 = .ok .getParamEgAttack ∧
    decode 0x090B00000000000000000000000000000000 = .ok .getParamEgDecay ∧
    decode 0x090C00000000000000000000000000000000 = .ok .getParamEgSustain ∧
    decode 0x090D00000000000000000000000000000000 = .ok .getParamEgRelease ∧
    decode 0x090E00000000000000000000000000000000 = .ok .getParamSquareDuty ∧
    decode 0x090F00000000000000000000000000000000 = .ok .getParamNoiseInterval ∧
    decode 0x091000000000000000000000000000000000 = .ok .getParamDacFreq ∧
    decode 0x091100000000000000000000000000000000 = .ok .getParamDacQ := by decide +kernel

theorem test_decode_illegal :
    decode 0x081200000000000000000000000000000000 = .error (.reservedParamId 0x08 18) ∧
    decode 0x09FF00000000000000000000000000000000 = .error (.reservedParamId 0x09 255) ∧
    decode 0x000000000000000000000000000000000000 = .error (.reservedOpcode 0x00) ∧
    decode 0x0F0000000000000000000000000000000000 = .error (.reservedOpcode 0x0F) ∧
    decode 0xFFFFFFFFFFFFFFFFFFFFFFFFFFFFFFFFFFFF = .error (.reservedOpcode 0xFF) := by
  decide +kernel

/-- A NaN operand in any pattern is the one NaN (R86: it decodes to a command). -/
theorem test_decode_nan_operand :
    decode 0x081100000000000000007FF8000000000001 = .ok (.setParamDacQ F64.nan) := by decide +kernel

/-- V71: an illegal word is answered with 0x02; R97: a table word runs as the next command. -/
theorem test_step_illegal :
    answers (step (presenting 0x0F0000000000000000000000000000000000))
      (answered .illegalCommand 0) = true := by decide +kernel

theorem test_step_runs_table_word :
    answers (step (State.reset.withFetchWord 144 0x024500000000000000000000000000000000))
      (fun t => answered .ok 0 t && t.port.commands.isEmpty) = true := by decide +kernel

/-! ## Binary64 -/

/-- 1/3, 0.1 + 0.2, the sum of opposite numbers, halving the smallest subnormal, and an overflow, by
IEEE 754 hand calculation. -/
theorem test_binary64 :
    F64.one.div (r 3) = f 0x3FD5555555555555 ∧
    (f 0x3FB999999999999A).add (f 0x3FC999999999999A) = f 0x3FD3333333333334 ∧
    F64.one.sub F64.one = F64.zero ∧
    (f 0x0000000000000001).mul half = F64.zero ∧
    (f 0x7FEFFFFFFFFFFFFF).add (f 0x7FEFFFFFFFFFFFFF) = F64.inf false ∧
    F64.zero.div F64.zero = F64.nan ∧ r 44100 = f 0x40E5888000000000 := by decide +kernel

/-- R10: subnormals, infinities, NaN and `-0.0` are flushed, a normal number is kept. -/
theorem test_flush :
    (f 0x000FFFFFFFFFFFFF).nz = F64.zero ∧ F64.nan.nz = F64.zero ∧ (F64.inf true).nz = F64.zero ∧
    F64.negZero.nz = F64.zero ∧ (f 0x0010000000000000).nz = f 0x0010000000000000 := by
  decide +kernel

/-- R9: `floor` goes down, `rnd` breaks ties away from zero. -/
theorem test_floor_and_rnd :
    (f 0xBFE0000000000000).floor = -1 ∧ (f 0x4004000000000000).floor = 2 ∧
    (f 0x4004000000000000).rnd = 3 ∧ (f 0xC004000000000000).rnd = -3 ∧
    (f 0x3FDFFFFFFFFFFFFF).rnd = 0 := by decide +kernel

/-! ## Nibble (V1 to V4) -/

/-- V2 (its table, by level). -/
theorem test_fromFloat :
    level (fromFloat (F64.inf true) rfl) = -8 ∧ level (fromFloat (f 0xBFEE000000000000) rfl) = -8 ∧
    level (fromFloat (f 0xBFD4000000000000) rfl) = -3 ∧
    level (fromFloat (f 0xBFB0000000000000) rfl) = -1 ∧
    level (fromFloat F64.negZero rfl) = 0 ∧ level (fromFloat half rfl) = 4 ∧
    level (fromFloat (f 0x3FECCCCCCCCCCCCD) rfl) = 6 ∧ level (fromFloat (r 2) rfl) = 7 := by
  decide +kernel

/-- R102: patterns of the table there. -/
theorem test_toFloat :
    toFloat 1 = f 0x3FC2492492492492 ∧ toFloat 5 = f 0x3FE6DB6DB6DB6DB7 ∧
    toFloat (BitVec.ofInt 4 (-7)) = f 0xBFEC000000000000 ∧ toFloat 0 = F64.zero := by decide +kernel

/-- V3. -/
theorem test_nibScale :
    level (nibScale 7 half) = 4 ∧ level (nibScale 8 half) = -4 ∧
    level (nibScale 8 (f 0x3FB0000000000000)) = -1 ∧
    level (nibScale 7 (f 0x3FB0000000000000)) = 0 ∧ level (nibScale 8 (r (-1))) = 7 ∧
    level (nibScale 13 half) = -2 ∧ level (nibScale 7 (F64.inf false)) = 7 := by decide +kernel

/-- V4. -/
theorem test_nibAdd :
    level (nibAdd 7 1) = 7 ∧ level (nibAdd 7 8) = -1 ∧ level (nibAdd 12 12) = -8 := by
  decide +kernel

/-! ## Oscillators (V10, V12, V13, V20, V21, V30, V32) -/

theorem test_square_wraps :
    sqProcess false F64.one .d50 (r 44100) { phase := threeQuarters, frequency := r 11025 } =
      (7, { phase := F64.zero, frequency := r 11025 }) ∧
    sqProcess false F64.one .d25 (r 44100) { phase := quarter, frequency := r 11025 } =
      (7, { phase := half, frequency := r 11025 }) := by decide +kernel

theorem test_square_backwards_and_infinite :
    sqProcess false F64.one .d50 (r 44100) { phase := F64.zero, frequency := r (-11025) } =
      (8, { phase := threeQuarters, frequency := r (-11025) }) ∧
    (sqProcess false F64.one .d50 (r 44100) { phase := f 0x3FE3333333333333, frequency := F64.nan })
      = (7, { phase := F64.zero, frequency := F64.nan }) ∧
    (sqAdvance true (r 2) (r 44100) { phase := F64.zero, frequency := r 11025 }).phase = half := by
  decide +kernel

theorem test_noise_steps :
    noAdvance (r 2) (r 1000) { sec_counter := f 0x3F50624DD2F1A9FC, index := 0 } =
      { sec_counter := F64.zero, index := 1 } ∧
    noAdvance F64.zero (r 1000) { sec_counter := F64.zero, index := 8191 } =
      { sec_counter := F64.zero, index := 0 } ∧
    (noAdvance F64.nan (r 1000) { sec_counter := F64.zero, index := 5 }).index = 5 := by
  decide +kernel

/-- V21: -5.0 steps on every tick; +inf never, with a counter that has overflowed too. -inf steps, by
R121's pseudocode. -/
theorem test_noise_corner_intervals :
    noAdvance (r (-5)) (r 1000) { sec_counter := F64.zero, index := 3 } =
      { sec_counter := F64.zero, index := 4 } ∧
    noAdvance (F64.inf false) (f 1) { sec_counter := F64.zero, index := 5 } =
      { sec_counter := F64.inf false, index := 5 } ∧
    noAdvance (F64.inf true) (r 1000) { sec_counter := F64.zero, index := 5 } =
      { sec_counter := F64.zero, index := 6 } := by decide +kernel

/-- R112, pseudocode: an increment of 1 holds 0.75 and moves 0.01 by the rounding of 1.01. -/
theorem test_square_increment_of_one :
    wrapUnit (threeQuarters.add F64.one) = threeQuarters ∧
    wrapUnit ((f 0x3F847AE147AE147B).add F64.one) = f 0x3F847AE147AE1480 := by decide +kernel

/-- A table whose entry 8 is 7 and whose entry 24 is -8. -/
def wave : Wavetable :=
  { phase := r 8, frequency := r 440, pitch_ratio := F64.one
    table := ((Vector.replicate WT_LEN 0).set 8 7).set 24 8 }

theorem test_wavetable_reads_then_advances :
    wtProcess (r 1760) wave = some (7, { wave with phase := r 16 }) ∧
    wtProcess (r 1760) { wave with phase := r 24 } = some (8, { wave with phase := F64.zero }) ∧
    wtProcess (r 1760) { wave with frequency := r (-440), phase := F64.zero } =
      some (0, { wave with frequency := r (-440), phase := r 24 }) := by decide +kernel

/-! ## Sweep (V40 to V42, V45) -/

def sweepPar (ty : SweepType) (amount period : F64) : Params :=
  { prologue with SweepType := ty, SweepAmount := amount, SweepPeriod := period }

/-- 4.1, whose distance from 8.1 is exactly 4 in binary64. -/
def amount41 : F64 := f 0x4010666666666666

theorem test_sweep_up_and_down :
    swProcess (sweepPar .up amount41 (r 64)) (r 4)
      { shadow_freq := r 440, timer := quarter, clipped := false } =
      (f 0x403B800000000000,
        { shadow_freq := f 0x407D380000000000, timer := F64.zero, clipped := false }) ∧
    swProcess (sweepPar .down amount41 (r 64)) (r 4)
      { shadow_freq := r 440, timer := quarter, clipped := false } =
      (f 0xC03B800000000000,
        { shadow_freq := f 0x4079C80000000000, timer := F64.zero, clipped := false }) ∧
    swProcess (sweepPar .up amount41 (r 64)) (r 4) (swReset (r 440)) =
      (F64.zero, { shadow_freq := r 440, timer := quarter, clipped := false }) := by decide +kernel

theorem test_sweep_clips :
    swProcess (sweepPar .up K.SWEEP_BIAS (r 128)) (r 4)
      { shadow_freq := r 7040, timer := threeQuarters, clipped := false } =
      (r 7040, { shadow_freq := r 14080, timer := F64.zero, clipped := true }) ∧
    swProcess (sweepPar .down K.SWEEP_BIAS (r 128)) (r 4)
      { shadow_freq := r 440, timer := threeQuarters, clipped := false } =
      (r (-440), { shadow_freq := F64.zero, timer := F64.zero, clipped := true }) ∧
    swProcess (sweepPar .up K.SWEEP_BIAS (r 128)) (r 4)
      { shadow_freq := r 5, timer := threeQuarters, clipped := false } =
      (r 5, { shadow_freq := r 10, timer := F64.zero, clipped := false }) := by decide +kernel

/-- R148: a NaN amount gives `d` = 0. -/
theorem test_sweep_nan_amount :
    swProcess (sweepPar .down F64.nan (r 128)) (r 4)
      { shadow_freq := r 440, timer := threeQuarters, clipped := false } =
      (F64.zero, { shadow_freq := r 440, timer := F64.zero, clipped := false }) := by decide +kernel

/-- V43, rows 1, 2, 8: the default delta is shadow/128, and the timer is reset at one full period. -/
theorem test_sweep_triangle :
    CFG.triDeltaDefault (r 1024) K.SWEEP_BIAS (r 128) (r 8) = r 8 ∧
    swTriangle (r 8) (sweepPar .triangle K.SWEEP_BIAS (r 128)) (r 8) (swReset (r 1024)) =
      (r 8, { shadow_freq := r 1032, timer := eighth, clipped := false }) ∧
    swTriangle (r 8) (sweepPar .triangle K.SWEEP_BIAS (r 128)) (r 8)
      { shadow_freq := r 1024, timer := quarter, clipped := false } =
      (r (-8), { shadow_freq := r 1016, timer := f 0x3FD8000000000000, clipped := false }) ∧
    swTriangle (r 8) (sweepPar .triangle K.SWEEP_BIAS (r 128)) (r 8)
      { shadow_freq := r 1024, timer := f 0x3FEC000000000000, clipped := false } =
      (r 8, { shadow_freq := r 1032, timer := F64.zero, clipped := false }) := by decide +kernel

/-! ## Envelope and stutter (V50, V52, V53, V55, V58) -/

/-- V50: all times and the sustain level 0.5. -/
def halfPar : Params :=
  { prologue with EgAttack := half, EgDecay := half, EgSustain := half, EgRelease := half }

/-- V50, ticks 4, 5, 6, 7, 16, 20. -/
theorem test_envelope_cycle :
    (envProcess halfPar (r 8) (envIn .attack 4 F64.zero threeQuarters)).1 = F64.one ∧
    (envAdvance halfPar (r 8) (envIn .attack 4 F64.zero threeQuarters)).state = .attack ∧
    envAdvance halfPar (r 8) (envIn .attack 5 F64.zero F64.one) =
      envIn .decay 1 F64.one F64.one ∧
    (envAdvance halfPar (r 8) (envIn .decay 1 F64.one F64.one)).value = f 0x3FEC000000000000 ∧
    (envProcess halfPar (r 8) (envIn .release 1 half half)).1 = f 0x3FD8000000000000 ∧
    envAdvance halfPar (r 8) (envIn .release 5 half F64.zero) =
      envIn .off 1 half F64.zero := by decide +kernel

/-- V53: an attack of zero costs one tick with gain 0, then the anchor. -/
theorem test_envelope_zero_times :
    envProcess prologue (r 8) (envIn .attack 0 F64.zero F64.zero) =
      (F64.zero, envIn .attack 1 F64.zero F64.zero) ∧
    envProcess prologue (r 8) (envIn .attack 1 F64.zero F64.zero) =
      (F64.one, envIn .decay 1 F64.one F64.one) := by decide +kernel

/-- V51. -/
theorem test_discrete_loudness :
    discreteLoudness (f 0x3FEFAE147AE147AE) = f 0x3FEE000000000000 ∧
    discreteLoudness (f 0xBF9EB851EB851EB8) = f 0xBFB0000000000000 ∧
    discreteLoudness (f 0x3FF8000000000000) = f 0x3FF8000000000000 := by decide +kernel

/-- V55: the parameters, and ticks 2, 3 and 6. -/
def stutterPar (depth : Int) : Params :=
  { prologue with StutterTime := quarter, StutterDepth := r depth, EgRelease := F64.zero }

def stuttering (st : EnvState) (elapsed count : Nat) (v value : F64) : Envelope :=
  { envIn st elapsed F64.one value with
    stuttering := true, st_count := count, stutter_velocity := v }

theorem test_stutter :
    (envAdvance (stutterPar 50) (r 8) (stuttering .attack 1 1 F64.one F64.zero)).st_count = 2 ∧
    envProcess (stutterPar 50) (r 8) (stuttering .decay 1 2 F64.one F64.one) =
      (F64.zero, stuttering .attack 1 0 half F64.zero) ∧
    envProcess (stutterPar 50) (r 8) (stuttering .sustain 1 2 half F64.one) =
      (F64.zero, { stuttering .off 1 0 F64.zero F64.zero with stuttering := false }) := by
  decide +kernel

/-- R172, V57: depth 0 of either sign never arms, nor, by R8, does NaN; the event that `StutterWhen`
does not name disarms. -/
theorem test_stutter_arming :
    (envNoteOn 60 F64.one prologue State.reset.env).stuttering = false ∧
    (envNoteOn 60 F64.one { prologue with StutterDepth := F64.negZero } State.reset.env).stuttering
      = false ∧
    (envNoteOn 60 F64.one { prologue with StutterDepth := F64.nan } State.reset.env).stuttering
      = false ∧
    (envNoteOn 60 F64.one (stutterPar 50) State.reset.env).stuttering = true ∧
    (envNoteOff (stutterPar 50) (stuttering .attack 1 1 half F64.one)).stuttering = false := by
  decide +kernel

/-- V52. -/
theorem test_note_off_in_attack :
    envNoteOff prologue (envIn .attack 3 F64.zero half) =
      { envIn .release 0 half half with note_on := false } := by decide +kernel

/-- V58. -/
theorem test_assignable :
    assignable 61 prologue (envIn .off 0 F64.one F64.zero) = false ∧
    assignable 60 prologue (envIn .off 0 F64.one F64.zero) = true ∧
    assignable 61 { prologue with StutterWhen := .noteOff } (envIn .sustain 0 F64.one F64.one)
      = false ∧
    assignable 61 { prologue with StutterWhen := .noteOff } (stuttering .sustain 0 0 F64.one F64.one)
      = true := by decide +kernel

/-! ## DAC (V62; the filter by hand) -/

/-- Coefficients 1/2, 1/4, 1/8, -1/2, 1/4 and history 1, 2, 4, 8: y = 1/2 + 1/4 + 1/4 + 2 - 2 = 1. -/
theorem test_dac_filter :
    dacFilter F64.one
      { b0n := half, b1n := quarter, b2n := eighth, a1n := f 0xBFE0000000000000, a2n := quarter
        x1 := F64.one, x2 := r 2, y1 := r 4, y2 := r 8, dirty := false } =
      (F64.one,
        { b0n := half, b1n := quarter, b2n := eighth, a1n := f 0xBFE0000000000000, a2n := quarter
          x1 := F64.one, x2 := F64.one, y1 := F64.one, y2 := r 4, dirty := false }) := by
  decide +kernel

theorem test_dac_degenerate :
    dacRecompute { prologue with DacFreq := F64.nan } (r 44100) State.reset.dac =
      { State.reset.dac with a1n := r (-2), a2n := F64.one, dirty := false } ∧
    dacAngle F64.zero (r 44100) = F64.zero := by
  have hs : (CFG.sin F64.zero).nz = F64.zero := by
    unfold CFG.sin
    simp only [show F64.zero.isFinite = true by decide +kernel,
      show F64.zero.isZero = true by decide +kernel, if_true]
    split
    · rename_i h
      have hm : (Config.rawSin F64.zero).canon.isNormal = false := by
        simp only [F64.isZero, beq_iff_eq] at h
        simp only [F64.isNormal, h]
        decide
      simp [F64.nz, hm]
    · decide +kernel
  have hw : dacAngle F64.nan (r 44100) = F64.zero := by decide +kernel
  have hc : (CFG.cos F64.zero).nz = F64.one := by decide +kernel
  refine ⟨?_, by decide +kernel⟩
  simp only [dacRecompute, hw, hs, hc]
  decide +kernel

/-! ## Commands (V34, V71, V72, V73, P1, P4) -/

theorem test_note_on :
    answers (exec (.noteOn 69 F64.one) (launched prologue)) (fun t =>
      t.vo.freq == r 440 && t.sq.frequency == r 440 && t.wt.frequency == r 440 &&
        t.sw == swReset (r 440) &&
        t.env == { envIn .attack 0 F64.zero F64.zero with note := 69 }) = true := by
  decide +kernel

theorem test_set_wt_sample :
    answers (exec (.setWtSample 31 8) State.reset) (fun t =>
      t.wt.table == (Vector.replicate WT_LEN 0).set 31 8) = true ∧
    answers (exec (.setWtSample 32 5) State.reset) (fun t =>
      t.wt.table == State.reset.wt.table && answered .ok 0 t) = true := by decide +kernel

theorem test_get_wavetable :
    answers (exec .getWavetable { State.reset with wt := wave })
      (answered .ok 0x00000008000000000000000700000000) = true := by decide +kernel

theorem test_enumeration_errors :
    answers (exec (.setParamOscType (r 3)) State.reset) (answered .notRepresentable 0) = true ∧
    answers (exec (.setParamSquareDuty (f 0x3FF8000000000000)) State.reset)
      (answered .notRepresentable 0) = true ∧
    answers (exec (.setParamSweepType (r (-1))) State.reset) (answered .notRepresentable 0) = true ∧
    answers (exec (.setParamStutterWhen F64.nan) State.reset) (answered .notRepresentable 0)
      = true ∧
    answers (exec (.setParamOscType F64.negZero) State.reset) (answered .ok 0) = true := by
  decide +kernel

theorem test_enumeration_codes :
    answers (exec (.setParamSweepType (r 3)) State.reset)
      (fun t => t.par == { Params.reset with SweepType := .triangle }) = true ∧
    answers (exec (.setParamStutterWhen (r 1)) State.reset)
      (fun t => t.par == { Params.reset with StutterWhen := .noteOff }) = true ∧
    answers (exec (.setParamSquareDuty (r 2)) State.reset)
      (fun t => t.par == { Params.reset with SquareDuty := .d50 }) = true := by decide +kernel

theorem test_get_param :
    answers (exec .getParamSquareDuty (launched prologue)) (answered .ok 0x4000000000000000)
      = true ∧
    answers (exec .getParamDacQ (launched prologue)) (answered .ok 0x3FE6A09E667F3BCD)
      = true := by decide +kernel

/-- V73. -/
theorem test_pitch_ratio :
    answers (exec (.setParamPitchBend (r 12)) State.reset)
      (fun t => t.wt.pitch_ratio == r 2 && t.par.PitchBend == r 12) = true ∧
    answers (exec (.setParamDetune (r (-12)))
      (launched { prologue with PitchBend := r 12 })) (fun t => t.wt.pitch_ratio == F64.one)
      = true := by decide +kernel

/-- V72: the values after reset and in P1 and P3. -/
theorem test_get_status :
    answers (exec .getStatus State.reset) (answered .ok 0x40) = true ∧
    answers (exec .getStatus
      { State.reset with
        env := { envIn .sustain 3 F64.one F64.one with note := 69 }
        sw := { State.reset.sw with clipped := true }
        dac := { State.reset.dac with dirty := false } }) (answered .ok 0x1452B) = true := by
  decide +kernel

theorem test_query :
    answers (exec (.queryAssignable 60) State.reset) (answered .ok 1) = true := by decide +kernel

/-- R235: a rate of zero is refused. -/
theorem test_process_refused :
    exec (.process F64.zero) State.reset = .refused .sampleRateNotFinitePositive ∧
    exec (.process F64.nan) State.reset = .refused .sampleRateNotFinitePositive := by
  constructor <;> rfl

/-- V74, V13: a tick from launch feeds silence and clears the flag. -/
theorem test_process_before_any_note :
    answers (exec (.process (r 44100)) (launched prologue)) (fun t =>
      !t.dac.dirty && t.dac.x1 == F64.zero && t.env.elapsed == 1) = true := by decide +kernel

/-- P1, the second tick: the square is low at full gain. -/
theorem test_process_square :
    answers (exec (.process (r 44100))
      { launched prologue with
        env := envIn .attack 1 F64.zero F64.zero, vo := { freq := r 440 } }) (fun t =>
      t.dac.x1 == r (-1) && t.env.state == .decay && t.sq.frequency == r 440) = true := by
  decide +kernel

/-! ## Witnesses: for every obligation with hypotheses, states and operands that meet them -/

theorem witness_DecodeEncodeRoundTrip : (Instr.noteOn 255 F64.nan).wf = true := by decide +kernel

theorem witness_IllegalWordsChangeNothing :
    (presenting 0x081200000000000000000000000000000000).port.commands =
      [0x081200000000000000000000000000000000] ∧
    isReserved 0x081200000000000000000000000000000000 = true ∧
    isReserved 0x081100000000000000000000000000000000 = false ∧
    isReserved 0x0F0000000000000000000000000000000000 = true ∧
    isReserved 0x0E0000000000000000000000000000000000 = false ∧
    ∃ t, step (presenting 0x0E0000000000000000000000000000000000) = .next t :=
  ⟨rfl, by decide +kernel, by decide +kernel, by decide +kernel, by decide +kernel, _, rfl⟩

theorem witness_StepRunsTheDecodedCommand :
    (presenting 0x0E0000000000000000000000000000000000).port.commands =
      [0x0E0000000000000000000000000000000000] ∧
    decode 0x0E0000000000000000000000000000000000 = .ok .getStatus ∧
    State.reset.port.commands = [] := ⟨rfl, by decide +kernel, rfl⟩

theorem witness_NoteOnSeedsAndTriggers :
    State.reset.par.StutterWhen = .noteOn ∧
    (launched { prologue with StutterWhen := .noteOff }).par.StutterWhen = .noteOff ∧
    F64.nan.isFinite = false ∧ (F64.inf false).isFinite = false := by decide +kernel

theorem witness_NoteOffReleases :
    (sounding prologue .decay half).env.state = .decay ∧
    (sounding prologue .release half).env.state = .release ∧
    (sounding prologue .decay half).par.StutterWhen = .noteOn ∧
    (sounding { prologue with StutterWhen := .noteOff } .decay half).par.StutterWhen = .noteOff :=
  ⟨rfl, rfl, rfl, rfl⟩

theorem witness_CfgNamedProperties :
    (-1022 : Int) ≤ -1022 ∧ (1023 : Int) ≤ 1023 ∧
    half.ge (r (-1022)) = true ∧ half.le (r 1023) = true ∧
    half.isFinite = true ∧ F64.negZero.isZero = true := by decide +kernel

theorem witness_SetWtSampleWritesOneEntry :
    (31 : Nat) < WT_LEN ∧ 32 ≤ (32 : Byte).toNat := by decide

theorem witness_RealParametersStoreAnyValue :
    Instr.setParamMasterVolume half ∈ plainSetters.map (fun c => c.1 half) ∧
    Instr.setParamNoiseInterval half ∈ plainSetters.map (fun c => c.1 half) := by decide +kernel

theorem witness_SemitoneOffsetsSetThePitchRatio :
    ((12 : Int), r 2) = (12, F64.real 2) ∧ State.reset.par.Detune = F64.zero := by decide +kernel

theorem witness_DacParametersSetDirty :
    ∃ t, exec (.setParamDacFreq half) State.reset = .next t ∧
      answers (exec (.process (r 44100)) t) (fun u => !u.dac.dirty) = true :=
  ⟨_, rfl, by decide +kernel⟩

/-- Every code is met, `-0.0` as 0, and 4.0 and NaN are no code. -/
theorem witness_EnumerationsStoreOnlyTheirCodes :
    F64.negZero.eq (r 0) = true ∧ (r 1).eq (r 1) = true ∧ (r 2).eq (r 2) = true ∧
    (r 3).eq (r 3) = true ∧ (∀ k : Fin 4, (r 4).eq (r k.val) = false) ∧
    (∀ k : Fin 4, F64.nan.eq (r k.val) = false) ∧ (∀ k : Fin 3, (r 3).eq (r k.val) = false) ∧
    (∀ k : Fin 2, (r 2).eq (r k.val) = false) ∧
    answers (exec (.setParamOscType (r 3)) State.reset)
      (fun t => (t.port.response.map statusField) == some 0x01) = true := by decide +kernel

theorem witness_GetParamReturnsTheRegister :
    (∃ c, getters[17]? = some c ∧ c.1 = .getParamDacQ) ∧ 18 ≤ (18 : Byte).toNat ∧
    (State.reset.par.DacQ).isNaN = false ∧
    (launched { prologue with DacQ := F64.nan }).par.DacQ.isNaN = true :=
  ⟨⟨_, rfl, rfl⟩, by decide, by decide +kernel, by decide +kernel⟩

theorem witness_SetThenGetReturnsTheValue :
    (∃ c, allSetters[3]? = some c ∧ c F64.negZero = .setParamOscType F64.negZero) ∧
    (∃ c, getters[3]? = some c ∧ c.1 = .getParamOscType) ∧ F64.negZero.isNaN = false ∧
    answers (exec (.setParamOscType F64.negZero) State.reset) (answered .ok 0) = true :=
  ⟨⟨_, rfl, rfl⟩, ⟨_, rfl, rfl⟩, by decide +kernel, by decide +kernel⟩

theorem witness_OnlyTheirCommandsWriteTableAndParameters :
    (∃ t, exec (.setWtSample 3 7) State.reset = .next t ∧
      (t.wt.table != State.reset.wt.table) = true) ∧
    ∃ t, exec (.setParamDacQ half) State.reset = .next t ∧ (t.par != State.reset.par) = true :=
  ⟨exists_of_answers (by decide +kernel), exists_of_answers (by decide +kernel)⟩

theorem witness_IdempotentCommands :
    isIdempotent (.setParamDacQ half) = true ∧
    ∃ t, exec (.setParamDacQ half) State.reset = .next t := ⟨rfl, _, rfl⟩

/-- An error and a success. -/
theorem witness_CommandsAreAnsweredAndErrorsArePrecise :
    (presenting 0x080300000000000000004008000000000000).port.commands =
      [0x080300000000000000004008000000000000] ∧
    (∃ t, step (presenting 0x080300000000000000004008000000000000) = .next t ∧
      answered .notRepresentable 0 t = true) ∧
    (presenting 0x0E0000000000000000000000000000000000).port.commands =
      [0x0E0000000000000000000000000000000000] ∧
    ∃ t, step (presenting 0x0E0000000000000000000000000000000000) = .next t ∧
      answered .ok 0x40 t = true :=
  ⟨rfl, exists_of_answers (by decide +kernel), rfl, exists_of_answers (by decide +kernel)⟩

theorem witness_QueryAssignable :
    (sounding prologue .sustain half).par.StutterWhen = .noteOn ∧
    (sounding { prologue with StutterWhen := .noteOff } .sustain half).par.StutterWhen = .noteOff :=
  ⟨rfl, rfl⟩

/-- The four kinds of a bad rate, and a refusal. -/
theorem witness_OnlyBadSampleRatesAreRefused :
    F64.nan.isNaN = true ∧ (F64.inf false).isInf = true ∧ F64.negZero.le F64.zero = true ∧
    (r (-1)).le F64.zero = true ∧
    exec (.process (r (-1))) State.reset = .refused .sampleRateNotFinitePositive :=
  ⟨by decide +kernel, by decide +kernel, by decide +kernel, by decide +kernel, rfl⟩

/-- The smallest and the largest accepted rate among them. -/
theorem witness_ClippedTick :
    acceptedRate (f 0x0000000000000001) = true ∧ acceptedRate (f 0x7FEFFFFFFFFFFFFF) = true ∧
    ({ State.reset with sw := { State.reset.sw with clipped := true } }).sw.clipped = true := by
  decide +kernel

theorem witness_SquareTick :
    acceptedRate (r 44100) = true ∧ State.reset.sw.clipped = false ∧
    State.reset.par.OscType = .square := by decide +kernel

theorem witness_NoiseTick :
    acceptedRate (r 44100) = true ∧ State.reset.sw.clipped = false ∧
    (launched { prologue with OscType := .noise }).par.OscType = .noise := by decide +kernel

theorem witness_WavetableTick :
    acceptedRate (r 44100) = true ∧ State.reset.sw.clipped = false ∧
    (launched { prologue with OscType := .wavetable }).par.OscType = .wavetable ∧
    inRange F64.zero wtLen (launched prologue).wt.phase = true ∧
    inRange F64.zero wtLen (f 0x403FFFFFFFFFFFFF) = true := by decide +kernel

theorem witness_OnlyProcessAdvancesTime :
    (∃ t, exec (.noteOn 69 F64.one) State.reset = .next t) ∧
    ∀ sr, (Instr.noteOn 69 F64.one) ≠ .process sr := ⟨⟨_, rfl⟩, fun _ => by simp⟩

/-- Both sides of the comparison at its boundary, and a sum of each kind. -/
theorem witness_SquareUnit :
    (f 0x3FDFFFFFFFFFFFFF).lt K.DUTY[2] = true ∧ half.lt K.DUTY[2] = false ∧
    (F64.inf false).isFinite = false ∧ (r 1).isFinite = true ∧
    inRange F64.zero F64.one ((r 1).sub (F64.real (r 1).floor)) = true ∧
    (f 0x8000000000000001).isFinite = true ∧
    inRange F64.zero F64.one
      ((f 0x8000000000000001).sub (F64.real (f 0x8000000000000001).floor)) = false := by
  decide +kernel

/-- The lowest and the highest note of the row of octaves. -/
theorem witness_PitchOctavesAreExact :
    ((9 : Byte).toNat : Int) = 69 + 12 * (-5) ∧ ((249 : Byte).toNat : Int) = 69 + 12 * 15 := by
  decide

/-- The counter at the interval, below it, and each of the infinite and NaN intervals. -/
theorem witness_NoiseUnit :
    (F64.zero.add (F64.one.div (r 1000))).ge (F64.one.div (r 1000)) = true ∧
    (F64.one.div (r 1000)).isInf = false ∧
    (F64.zero.add (F64.one.div (r 1000))).ge ((r 2).div (r 1000)) = false ∧
    F64.nan.isNaN = true ∧ ((F64.inf false).div (r 1000)).isInf = true ∧
    (F64.zero.add (F64.one.div (f 1))).ge ((F64.inf false).div (r 1000)) = true ∧
    ((F64.inf true).div (r 1000)).sign = true ∧
    (F64.zero.add (F64.one.div (r 1000))).ge ((F64.inf true).div (r 1000)) = true ∧
    (F64.zero.add (F64.one.div (r 1000))).isNaN = false := by decide +kernel

/-- The remainder that R132 forms of a sum. -/
def remainder32 (t : F64) : F64 :=
  t.sub ((F64.real 32).mul (F64.real (t.div (F64.real 32)).floor))

/-- The lowest phase and the highest; a sum of each kind: not finite, 32 itself, and one just below
zero, whose remainder rounds to 32. -/
theorem witness_WavetableLookupReadsTheEntry :
    inRange F64.zero wtLen F64.zero = true ∧
    inRange F64.zero wtLen (f 0x403FFFFFFFFFFFFF) = true ∧ (f 0x403FFFFFFFFFFFFF).floor = 31 ∧
    (F64.inf true).isFinite = false ∧
    (r 32).isFinite = true ∧ inRange F64.zero (F64.real 32) (remainder32 (r 32)) = true ∧
    (f 0x8000000000000001).isFinite = true ∧
    inRange F64.zero (F64.real 32) (remainder32 (f 0x8000000000000001)) = false := by
  decide +kernel

theorem witness_SweepNoneOutputsZero : prologue.SweepType = .none := rfl

theorem witness_SweepGuard :
    State.reset.par.SweepAmount.isZero = true ∧
    (sweepPar .up K.SWEEP_BIAS F64.negZero).SweepPeriod.isZero = true ∧
    ∃ t, exec (.process (r 44100)) State.reset = .next t ∧ (t.env.elapsed == 1) = true :=
  ⟨by decide +kernel, by decide +kernel,
    exists_of_answers (by decide +kernel)⟩

/-- A tick that reaches the period (at its boundary) and one that does not; a NaN amount. -/
theorem witness_SweepUpAndDown :
    (sweepPar .up F64.nan (r 128)).SweepAmount.eq F64.zero = false ∧
    (sweepPar .up K.SWEEP_BIAS (r 128)).SweepAmount.eq F64.zero = false ∧
    (sweepPar .up K.SWEEP_BIAS (r 128)).SweepPeriod.eq F64.zero = false ∧
    (sweepPar .down K.SWEEP_BIAS (r 128)).SweepType = .down ∧
    (threeQuarters.add (F64.one.div (r 4)).nz).nz.ge ((r 128).mul (F64.one.div (F64.real 128))).nz
      = true ∧
    (half.add (F64.one.div (r 4)).nz).nz.ge ((r 128).mul (F64.one.div (F64.real 128))).nz
      = false := by decide +kernel

theorem witness_SweepTriangle :
    (sweepPar .triangle K.SWEEP_BIAS (r 128)).SweepAmount.eq F64.zero = false ∧
    (sweepPar .triangle K.SWEEP_BIAS (r 128)).SweepPeriod.eq F64.zero = false ∧
    (sweepPar .triangle K.SWEEP_BIAS (r 128)).SweepType = .triangle := by decide +kernel

/-- A state in which the next Up tick clips (P3, tick 20). -/
def aboutToClip : State :=
  { launched (sweepPar .up K.SWEEP_BIAS (r 128)) with
    sw := { shadow_freq := r 7040, timer := threeQuarters, clipped := false } }

theorem witness_ClipLatch :
    (∃ t, exec (.process (r 4)) aboutToClip = .next t ∧
      (t.sw.clipped && t.sw.shadow_freq != r 7040) = true) ∧
    ∃ t, exec (.sweepReset (r 440))
        { State.reset with sw := { State.reset.sw with clipped := true } } = .next t ∧
      (!t.sw.clipped) = true :=
  ⟨exists_of_answers (by decide +kernel), exists_of_answers (by decide +kernel)⟩

/-- At one sample per second the seconds are the count: 3 > 2 leaves, 3 > 3 does not. An envelope that
is not stuttering, and one whose stutter tick is not due at the boundary 0.25 (V55). -/
theorem witness_EnvelopeTimedTransitions :
    stutterDue (stutterPar 50) F64.one (envIn .attack 3 F64.one half) = false ∧
    stutterDue (stutterPar 50) (r 8) (stuttering .decay 3 1 F64.one F64.one) = false ∧
    (((F64.real (3 : Nat)).div F64.one).nz).gt (r 2) = true ∧
    (((F64.real (3 : Nat)).div F64.one).nz).gt (r 3) = false := by decide +kernel

/-- Each of the clauses (V55: the boundary 0.25, the floor, a retrigger with an attack time of zero and
with a negative one). -/
theorem witness_StutterTick :
    (stuttering .decay 1 1 F64.one F64.one).stuttering = true ∧
    (((F64.real (1 + 1 : Nat)).div (r 8)).nz).gt quarter = false ∧
    (((F64.real (2 + 1 : Nat)).div (r 8)).nz).gt quarter = true ∧
    ((half.sub (F64.one.sub ((r 50).div (F64.real 100)).nz).nz).nz).lt K.STUTTER_FLOOR = true ∧
    ((F64.one.sub (F64.one.sub ((r 50).div (F64.real 100)).nz).nz).nz).lt K.STUTTER_FLOOR
      = false ∧
    F64.zero.gt F64.zero = false ∧ F64.zero.gt (r (-1)) = true := by decide +kernel

theorem witness_OffVoiceIsSilent :
    State.reset.env.state = .off ∧ State.reset.env.stuttering = false ∧
    ∃ t, exec (.process (r 44100)) State.reset = .next t ∧ (t.env.elapsed == 1) = true :=
  ⟨rfl, rfl, exists_of_answers (by decide +kernel)⟩

/-- A sustained voice whose next tick at 8 samples per second is a stutter tick (V55). -/
def stutterDueState (p : Params) (v : F64) : State :=
  { launched p with env := stuttering .sustain 1 2 v F64.one }

/-- A note event of each kind, a timed transition, and the three outcomes of a due stutter tick: forced
Off, retrigger, and a retrigger that a negative attack time leaves for Decay. -/
theorem witness_EnvelopeStateWriters :
    (∃ t, exec (.noteOn 69 F64.one) State.reset = .next t ∧
      (t.env.state != State.reset.env.state) = true) ∧
    (∃ t, exec (.noteOff 69) (sounding prologue .sustain half) = .next t ∧
      (t.env.state != .sustain) = true) ∧
    (∃ t, exec (.process (r 4)) (sounding prologue .attack half) = .next t ∧
      (t.env.state != .attack) = true) ∧
    (∃ t, exec (.process (r 8)) (stutterDueState (stutterPar 50) half) = .next t ∧
      (t.env.state == .off) = true) ∧
    (∃ t, exec (.process (r 8)) (stutterDueState (stutterPar 50) F64.one) = .next t ∧
      (t.env.state == .attack) = true) ∧
    ∃ t, exec (.process (r 8))
        (stutterDueState { stutterPar 50 with EgAttack := r (-1) } F64.one) = .next t ∧
      (t.env.state == .decay) = true :=
  ⟨exists_of_answers (by decide +kernel), exists_of_answers (by decide +kernel),
    exists_of_answers (by decide +kernel), exists_of_answers (by decide +kernel),
    exists_of_answers (by decide +kernel), exists_of_answers (by decide +kernel)⟩

theorem witness_StutterIsArmedOnlyByNoteEvents :
    (∃ t, exec (.noteOn 69 F64.one) (launched (stutterPar 50)) = .next t ∧
      t.env.stuttering = true) ∧
    ∃ t, exec (.process (r 8))
        { launched (stutterPar 50) with env := stuttering .sustain 1 2 half F64.one } = .next t ∧
      (!t.env.stuttering) = true :=
  ⟨exists_of_answers (by decide +kernel), exists_of_answers (by decide +kernel)⟩

/-- Operands below the range, in each half at its ends, and above. -/
theorem witness_NibbleRoundTrip :
    (r (-2)).lt (F64.real (-1)) = true ∧
    (r (-1)).ge (F64.real (-1)) = true ∧ (r (-1)).lt F64.zero = true ∧
    F64.negZero.ge F64.zero = true ∧ F64.one.ge F64.zero = true ∧ F64.one.le F64.one = true ∧
    (F64.inf false).gt F64.one = true ∧ (F64.inf false).isNaN = false := by decide +kernel

theorem witness_NibbleArithmeticSaturates :
    (f 0x7FEFFFFFFFFFFFFF).isFinite = true ∧
    ((F64.real (level 7)).mul (f 0x7FEFFFFFFFFFFFFF)).isFinite = false ∧
    half.isFinite = true ∧ ((F64.real (level 7)).mul half).isFinite = true := by decide +kernel

theorem witness_DacTick :
    ∃ t, exec (.process (r 44100)) State.reset = .next t ∧ t.dac.dirty = false := by
  obtain ⟨t, h, hp⟩ := exists_of_answers (o := exec (.process (r 44100)) State.reset)
    (p := fun t => !t.dac.dirty) (by decide +kernel)
  exact ⟨t, h, by simpa using hp⟩

theorem witness_DacCoefficients :
    acceptedRate (r 44100) = true ∧ State.reset.par.DacFreq.isZero = true := by decide +kernel

theorem witness_DacCaching :
    State.reset.dac.dirty = true ∧
    (∃ t, exec (.process (r 44100)) State.reset = .next t ∧ (!t.dac.dirty) = true) ∧
    ∃ t, exec (.setParamDacQ half)
        { State.reset with dac := { State.reset.dac with dirty := false } } = .next t ∧
      t.dac.dirty = true :=
  ⟨rfl, exists_of_answers (by decide +kernel), exists_of_answers (by decide +kernel)⟩

theorem witness_AfterLaunch :
    acceptedRate (r 44100) = true ∧ Params.reset.SweepType ≠ .triangle := by decide +kernel

theorem witness_LaunchMeetsTheInvariants :
    (parameterReals Params.reset).all F64.isCanonical = true := by decide +kernel

/-- A state that meets every invariant, with a `PROCESS` on the port that completes. -/
theorem witness_PhasesStayInRange :
    PhasesInRange (presenting 0x0A00000000000000000040E5888000000000) = true ∧
    ∃ t, step (presenting 0x0A00000000000000000040E5888000000000) = .next t ∧
      (t.env.elapsed == 1) = true :=
  ⟨by decide +kernel, exists_of_answers (by decide +kernel)⟩

theorem witness_DacStaysFiniteAndNotesStayValid :
    DacFinite (presenting 0x0A00000000000000000040E5888000000000).dac = true ∧
    NoteFlagsAgree (presenting 0x0A00000000000000000040E5888000000000).env = true := by
  decide +kernel

theorem witness_RegistersStayCanonical :
    RegistersCanonical (presenting 0x0A00000000000000000040E5888000000000) = true := by
  decide +kernel

/-- The invariant holds and the step is refused: the word is `PROCESS 0.0`. -/
theorem witness_StepsComplete :
    PhasesInRange (presenting 0x0A0000000000000000000000000000000000) = true ∧
    step (presenting 0x0A0000000000000000000000000000000000) =
      .refused .sampleRateNotFinitePositive := ⟨by decide +kernel, rfl⟩

/-- The least normal number of each sign is kept; the greatest subnormal, an infinity and NaN are not. -/
theorem witness_FlushToZero :
    (f 0x0010000000000000).isFinite = true ∧
    (f 0x0010000000000000).ge (f 0x0010000000000000) = true ∧
    (f 0x8010000000000000).le (f 0x0010000000000000).neg = true ∧
    (f 0x000FFFFFFFFFFFFF).lt (f 0x0010000000000000) = true ∧
    (f 0x000FFFFFFFFFFFFF).gt (f 0x0010000000000000).neg = true ∧
    (F64.inf true).isFinite = false ∧ F64.nan.isFinite = false := by decide +kernel

end Sys2Proof.Tests
end

section
/-! PROOF. The order of `real` by key, with the flush (00_scope.md R10) and the constants (R6). -/

namespace Sys2Proof.F64

/-! ## The order by key

The relations of `real` as relations of the keys, so that proofs about them end in `omega`. -/

/-- The key is the magnitude with the sign. -/
theorem natAbs_key (x : F64) : x.key.natAbs = x.mag := by
  unfold key
  split <;> simp

theorem le_iff {x y : F64} :
    x.le y = true ↔ x.isNaN = false ∧ y.isNaN = false ∧ x.key ≤ y.key := by
  simp [le, and_assoc]

theorem lt_iff {x y : F64} :
    x.lt y = true ↔ x.isNaN = false ∧ y.isNaN = false ∧ x.key < y.key := by
  simp [lt, and_assoc]

theorem ge_iff {x y : F64} :
    x.ge y = true ↔ x.isNaN = false ∧ y.isNaN = false ∧ y.key ≤ x.key := by
  rw [ge, le_iff]; tauto

theorem gt_iff {x y : F64} :
    x.gt y = true ↔ x.isNaN = false ∧ y.isNaN = false ∧ y.key < x.key := by
  rw [gt, lt_iff]; tauto

theorem eq_iff {x y : F64} :
    x.eq y = true ↔ x.isNaN = false ∧ y.isNaN = false ∧ x.key = y.key := by
  simp [eq, and_assoc]

/-! ## The flush -/

/-- The key of the least normal number, 2^-1022, and of its negation. -/
theorem key_leastNormal :
    key ⟨0x0010000000000000⟩ = 2 ^ 52 ∧ (neg ⟨0x0010000000000000⟩).key = -2 ^ 52 := by
  decide +kernel

/-- A finite number is normal exactly when its key is outside the keys of the subnormals. -/
theorem isNormal_iff_key {x : F64} :
    x.isNormal = true ↔ x.isFinite = true ∧ (2 ^ 52 ≤ x.key ∨ x.key ≤ -2 ^ 52) := by
  have := x.natAbs_key
  simp only [isNormal, isFinite, Bool.and_eq_true, decide_eq_true_eq]
  omega

end Sys2Proof.F64

namespace Sys2Proof.Machine

/-- Settles O60: by the key of the least normal number, `nz` keeps exactly the normal numbers. -/
theorem flushToZero : Obligations.FlushToZero := by
  unfold Obligations.FlushToZero
  rintro x least rfl
  obtain ⟨hk, hkn⟩ := F64.key_leastNormal
  simp only [F64.ge_iff, F64.le_iff, F64.gt_iff, F64.lt_iff, hk, hkn]
  constructor
  · intro hf hkey
    have hn : x.isNormal = true := F64.isNormal_iff_key.2 ⟨hf, by tauto⟩
    simp [F64.nz, hn]
  · intro hx
    refine F64.nz_of_not_isNormal (Bool.eq_false_iff.2 fun hn => ?_)
    obtain ⟨hf, hkey⟩ := F64.isNormal_iff_key.1 hn
    rcases hx with h | ⟨⟨_, _, h1⟩, _, _, h2⟩
    · simp [hf] at h
    · omega

/-- Settles O52, by evaluation: the duties, `SWEEP_BIAS` and `STUTTER_FLOOR` stand in `K` as patterns,
which the rounded quotients are. -/
theorem constantsAreTheSources : Obligations.ConstantsAreTheSources := by
  unfold Obligations.ConstantsAreTheSources
  decide +kernel

end Sys2Proof.Machine
end

section
/-! PROOF. Integers as reals, and the named properties of the configuration functions
(00_scope.md R11). -/

namespace Sys2Proof.F64

/-! ## Integers of magnitude below 2^53 as reals: their patterns, order and floor -/

/-- The magnitude pattern of the integer `m` in [1, 2^53): the biased exponent, the leading bit of the
significand carried into it. -/
def intMag (m : Nat) : Nat := (Nat.log2 m + 1022) * 2 ^ 52 + m * 2 ^ (52 - Nat.log2 m)

/-- The significand of an integer in [1, 2^53) is shifted up to 53 bits. -/
theorem intMant_bounds {m : Nat} (h0 : m ≠ 0) (h : m < 2 ^ 53) :
    Nat.log2 m ≤ 52 ∧ 2 ^ 52 ≤ m * 2 ^ (52 - Nat.log2 m) ∧ m * 2 ^ (52 - Nat.log2 m) < 2 ^ 53 := by
  have hl : Nat.log2 m < 53 := (Nat.log2_lt h0).2 h
  have hpos : 0 < 2 ^ (52 - Nat.log2 m) := Nat.two_pow_pos _
  refine ⟨by omega, ?_, ?_⟩
  · calc 2 ^ 52 = 2 ^ Nat.log2 m * 2 ^ (52 - Nat.log2 m) := by rw [← pow_add]; congr 1; omega
      _ ≤ m * 2 ^ (52 - Nat.log2 m) := Nat.mul_le_mul_right _ (Nat.log2_self_le h0)
  · calc m * 2 ^ (52 - Nat.log2 m)
        < 2 ^ (Nat.log2 m + 1) * 2 ^ (52 - Nat.log2 m) :=
          Nat.mul_lt_mul_of_pos_right Nat.lt_log2_self hpos
      _ = 2 ^ 53 := by rw [← pow_add]; congr 1; omega

theorem intMag_bounds {m : Nat} (h0 : m ≠ 0) (h : m < 2 ^ 53) :
    (Nat.log2 m + 1023) * 2 ^ 52 ≤ intMag m ∧ intMag m < (Nat.log2 m + 1024) * 2 ^ 52 := by
  obtain ⟨_, h1, h2⟩ := intMant_bounds h0 h
  unfold intMag
  omega

/-- The pattern is one of a finite number. -/
theorem intMag_lt {m : Nat} (h0 : m ≠ 0) (h : m < 2 ^ 53) : intMag m < 2047 * 2 ^ 52 :=
  have hl := (intMant_bounds h0 h).1
  (intMag_bounds h0 h).2.trans_le (Nat.mul_le_mul_right _ (by omega))

/-- The pattern grows with the integer: in a binade by the significand, between binades by the
exponent. -/
theorem intMag_lt_intMag {a b : Nat} (ha : a ≠ 0) (hab : a < b) (hb : b < 2 ^ 53) :
    intMag a < intMag b := by
  have hlog : Nat.log2 a ≤ Nat.log2 b := by
    rw [Nat.log2_eq_log_two, Nat.log2_eq_log_two]
    exact Nat.log_mono_right hab.le
  rcases hlog.eq_or_lt with he | hlt
  · have := Nat.mul_lt_mul_of_pos_right hab (Nat.two_pow_pos (52 - Nat.log2 b))
    simp only [intMag, he]
    omega
  · have := (intMag_bounds ha (by omega)).2
    have := (intMag_bounds (by omega : b ≠ 0) hb).1
    omega

@[simp] theorem real_zero : real 0 = zero := by decide +kernel

/-- An integer in range needs no rounding: its pattern is exact. -/
theorem real_eq {n : Int} (h0 : n ≠ 0) (h : n.natAbs < 2 ^ 53) :
    real n = ⟨BitVec.ofNat 64
      (if decide (n < 0) then 2 ^ 63 + intMag n.natAbs else intMag n.natAbs)⟩ := by
  have hm : n.natAbs ≠ 0 := by omega
  have hl := (intMant_bounds hm h).1
  have hb := intMag_lt hm h
  have hq : lastPlace n.natAbs 0 = (Nat.log2 n.natAbs : Int) - 52 := by unfold lastPlace; omega
  have hmag : (lastPlace n.natAbs 0 + 1074).toNat * 2 ^ 52 +
      n.natAbs * 2 ^ (0 - lastPlace n.natAbs 0).toNat = intMag n.natAbs := by
    unfold intMag
    rw [hq]
    congr 3 <;> omega
  unfold real round
  simp only [if_neg hm, if_pos (by omega : lastPlace n.natAbs 0 ≤ 0), hmag, pack]
  rw [if_neg (by omega)]

theorem mag_real {n : Int} (h0 : n ≠ 0) (h : n.natAbs < 2 ^ 53) :
    (real n).mag = intMag n.natAbs := by
  have hb : intMag n.natAbs < 2 ^ 63 := by
    have := intMag_lt (by omega) h
    omega
  rw [real_eq h0 h, mag_ofNat _ hb]

theorem sign_real {n : Int} (h0 : n ≠ 0) (h : n.natAbs < 2 ^ 53) :
    (real n).sign = decide (n < 0) := by
  have := intMag_lt (by omega) h
  rw [real_eq h0 h]
  simp only [sign, BitVec.toNat_ofNat, decide_eq_decide, decide_eq_true_eq]
  split <;> omega

theorem key_real {n : Int} (h0 : n ≠ 0) (h : n.natAbs < 2 ^ 53) :
    (real n).key = if n < 0 then -(intMag n.natAbs : Int) else intMag n.natAbs := by
  simp only [key, sign_real h0 h, mag_real h0 h, decide_eq_true_eq]

theorem isFinite_of_isZero {x : F64} (h : x.isZero = true) : x.isFinite = true := by
  simp only [isZero, isFinite, beq_iff_eq, decide_eq_true_eq] at *
  omega

/-- Either zero equals zero. -/
theorem eq_zero_of_isZero {x : F64} (h : x.isZero = true) : x.eq zero = true := by
  rcases eq_zero_or_negZero h with rfl | rfl <;> decide +kernel

theorem key_zero : zero.key = 0 := by decide +kernel

/-- `real` keeps the strict order of the integers. -/
theorem key_real_lt_key_real {a b : Int} (ha : a.natAbs < 2 ^ 53) (hb : b.natAbs < 2 ^ 53)
    (hab : a < b) : (real a).key < (real b).key := by
  have pos : ∀ {n : Int}, n ≠ 0 → n.natAbs < 2 ^ 53 → 0 < intMag n.natAbs := fun h0 h => by
    have := (intMag_bounds (by omega) h).1
    omega
  by_cases ha0 : a = 0
  · have := pos (by omega : b ≠ 0) hb
    rw [ha0, real_zero, key_zero, key_real (by omega) hb, if_neg (by omega)]
    omega
  have hpa := pos ha0 ha
  rw [key_real ha0 ha]
  by_cases hb0 : b = 0
  · rw [hb0, real_zero, key_zero, if_pos (by omega)]
    omega
  have hpb := pos hb0 hb
  rw [key_real hb0 hb]
  by_cases hneg : b < 0
  · have := intMag_lt_intMag (a := b.natAbs) (b := a.natAbs) (by omega) (by omega) ha
    rw [if_pos (by omega), if_pos hneg]
    omega
  · rw [if_neg hneg]
    split
    · omega
    · have := intMag_lt_intMag (a := a.natAbs) (b := b.natAbs) (by omega) (by omega) hb
      omega

theorem key_real_le_key_real_iff {a b : Int} (ha : a.natAbs < 2 ^ 53) (hb : b.natAbs < 2 ^ 53) :
    (real a).key ≤ (real b).key ↔ a ≤ b := by
  constructor
  · intro h
    by_contra hlt
    have := key_real_lt_key_real hb ha (by omega)
    omega
  · intro h
    rcases h.eq_or_lt with rfl | hlt
    · exact le_rfl
    · exact (key_real_lt_key_real ha hb hlt).le

/-- The exponent and the significand of an integer in range. -/
theorem expo_mant_real {n : Int} (h0 : n ≠ 0) (h : n.natAbs < 2 ^ 53) :
    (real n).expo = (Nat.log2 n.natAbs : Int) - 52 ∧
      (real n).mant = n.natAbs * 2 ^ (52 - Nat.log2 n.natAbs) := by
  have hm : n.natAbs ≠ 0 := by omega
  obtain ⟨hl, h1, h2⟩ := intMant_bounds hm h
  have hmag := mag_real h0 h
  have hE : (real n).expField = Nat.log2 n.natAbs + 1023 := by
    unfold expField; rw [hmag]; unfold intMag; omega
  have hF : (real n).fracField = n.natAbs * 2 ^ (52 - Nat.log2 n.natAbs) - 2 ^ 52 := by
    have : (real n).mag = (real n).bits.toNat % 2 ^ 63 := rfl
    unfold fracField
    unfold intMag at hmag
    omega
  constructor
  · unfold expo; omega
  · unfold mant; rw [if_neg (by omega)]; omega

/-- The floor of an integer in range is the integer. -/
theorem floor_real {n : Int} (h : n.natAbs < 2 ^ 53) : (real n).floor = n := by
  by_cases h0 : n = 0
  · subst h0; decide +kernel
  have hm : n.natAbs ≠ 0 := by omega
  have hl := (intMant_bounds hm h).1
  have hfin : (real n).isFinite = true := by
    simpa only [isFinite, mag_real h0 h, decide_eq_true_eq] using intMag_lt hm h
  obtain ⟨hexpo, hmant⟩ := expo_mant_real h0 h
  have hsmant : (real n).smant = n * 2 ^ (52 - Nat.log2 n.natAbs) := by
    have hcast : (((real n).mant : Nat) : Int) = n.natAbs * 2 ^ (52 - Nat.log2 n.natAbs) := by
      rw [hmant]; push_cast; rfl
    unfold smant
    rw [hcast, sign_real h0 h]
    by_cases hn : n < 0
    · rw [if_pos (by simpa using hn), ← Int.neg_mul]; congr 1; omega
    · rw [if_neg (by simpa using hn)]; congr 1; omega
  unfold floor
  rw [if_pos hfin, hsmant, hexpo]
  split
  · rw [show 52 - Nat.log2 n.natAbs = 0 by omega,
      show ((Nat.log2 n.natAbs : Int) - 52).toNat = 0 by omega]
    omega
  · rw [show (-((Nat.log2 n.natAbs : Int) - 52)).toNat = 52 - Nat.log2 n.natAbs by omega]
    exact Int.mul_ediv_cancel _ (by positivity)

/-- A number below 2^53 in magnitude has its floor there. -/
theorem natAbs_floor_lt {x : F64} (h : x.mag < 1075 * 2 ^ 52) : x.floor.natAbs < 2 ^ 53 := by
  have hE : x.expField ≤ 1074 := by unfold expField; omega
  have hmant : x.mant < 2 ^ 53 := by
    have : x.fracField < 2 ^ 52 := Nat.mod_lt _ (by decide)
    unfold mant; split <;> omega
  have hs : x.smant.natAbs < 2 ^ 53 := by unfold smant; split <;> omega
  have hexpo : x.expo < 0 := by unfold expo; omega
  unfold floor
  simp only [if_neg (by omega : ¬ 0 ≤ x.expo)]
  split
  · exact (Int.natAbs_ediv_le_natAbs _ _).trans_lt hs
  · simp

/-- The key of a power of two in the normal range. -/
theorem pow2_normal {k : Int} (h0 : -1022 ≤ k) (h1 : k ≤ 1023) :
    (pow2 k).isFinite = true ∧ 0 < (pow2 k).key := by
  have hbits : (pow2 k).bits.toNat = (k + 1023).toNat * 2 ^ 52 := by
    simp only [pow2, BitVec.toNat_ofNat]
    omega
  simp only [isFinite, key, sign, mag, hbits, decide_eq_true_eq]
  rw [if_neg (by omega)]
  omega

end Sys2Proof.F64

namespace Sys2Proof.Machine
namespace CFG

/-! ## The named properties, one lemma for each (00_scope.md R11) -/

/-- `P_EXP2_INT`. -/
theorem exp2_real {k : Int} (h0 : -1022 ≤ k) (h1 : k ≤ 1023) : exp2 (F64.real k) = F64.pow2 k := by
  have hge : (F64.real k).ge (F64.real (-1022)) = true :=
    F64.ge_iff.2 ⟨by simp, by simp, (F64.key_real_le_key_real_iff (by decide) (by omega)).2 h0⟩
  have hle : (F64.real k).le (F64.real 1023) = true :=
    F64.le_iff.2 ⟨by simp, by simp, (F64.key_real_le_key_real_iff (by omega) (by decide)).2 h1⟩
  have hfloor : (F64.real k).floor = k := F64.floor_real (by omega)
  have heq : (F64.real k).eq (F64.real k) = true := F64.eq_iff.2 ⟨by simp, by simp, rfl⟩
  simp [exp2, hge, hle, hfloor, heq]

/-- A value in [-1022, 1023] that equals its floor has the floor in that range. -/
theorem floor_mem_of_eq_real_floor {x : F64} (hge : x.ge (F64.real (-1022)) = true)
    (hle : x.le (F64.real 1023) = true) (heq : x.eq (F64.real x.floor) = true) :
    -1022 ≤ x.floor ∧ x.floor ≤ 1023 := by
  obtain ⟨_, _, hlo⟩ := F64.ge_iff.1 hge
  obtain ⟨_, _, hhi⟩ := F64.le_iff.1 hle
  obtain ⟨_, _, hkey⟩ := F64.eq_iff.1 heq
  have hfl : x.floor.natAbs < 2 ^ 53 := by
    have hlo' : (F64.real (-1022)).key = -4652200822887677952 := by decide +kernel
    have hhi' : (F64.real 1023).key = 4652209618980700160 := by decide +kernel
    have := x.natAbs_key
    exact F64.natAbs_floor_lt (by omega)
  rw [hkey] at hlo hhi
  exact ⟨(F64.key_real_le_key_real_iff (by decide) hfl).1 hlo,
    (F64.key_real_le_key_real_iff hfl (by decide)).1 hhi⟩

/-- `P_EXP2_POS`. -/
theorem exp2_pos_finite {x : F64} (hge : x.ge (F64.real (-1022)) = true)
    (hle : x.le (F64.real 1023) = true) :
    (exp2 x).gt F64.zero = true ∧ (exp2 x).isFinite = true := by
  simp only [exp2, hge, hle, Bool.and_self, if_true]
  split
  · rename_i heq
    obtain ⟨h0, h1⟩ := floor_mem_of_eq_real_floor hge hle heq
    obtain ⟨hfin, hpos⟩ := F64.pow2_normal h0 h1
    exact ⟨F64.gt_iff.2 ⟨F64.isNaN_eq_false_of_isFinite hfin, by simp, by rwa [F64.key_zero]⟩, hfin⟩
  · split
    · rename_i h
      rw [Bool.and_eq_true] at h
      exact h.symm
    · exact ⟨by decide +kernel, by simp⟩

/-- `P_TRIG_RANGE` for the sine. -/
theorem inUnit_sin {x : F64} (hx : x.isFinite = true) : inUnit (sin x) = true := by
  simp only [sin, hx, if_true]
  split
  · split
    · rename_i hr
      rcases F64.eq_zero_or_negZero hr with h | h <;> rw [h] <;> decide +kernel
    · decide +kernel
  · split
    · assumption
    · decide +kernel

/-- `P_TRIG_RANGE` for the cosine. -/
theorem inUnit_cos {x : F64} (hx : x.isFinite = true) : inUnit (cos x) = true := by
  simp only [cos, hx, if_true]
  split
  · decide +kernel
  · split
    · assumption
    · decide +kernel

/-- `P_TRIG_ZERO` for the sine, whose result may be either zero. -/
theorem sin_of_isZero {x : F64} (hx : x.isZero = true) : (sin x).eq F64.zero = true := by
  simp only [sin, F64.isFinite_of_isZero hx, hx, if_true]
  split
  · rename_i hr; exact F64.eq_zero_of_isZero hr
  · exact F64.eq_zero_zero

/-- `P_TRIG_ZERO` for the cosine. -/
theorem cos_of_isZero {x : F64} (hx : x.isZero = true) : cos x = F64.one := by
  simp only [cos, F64.isFinite_of_isZero hx, hx, if_true]

end CFG

/-- Settles O10, each clause by the lemma of its named property. -/
theorem cfgNamedProperties : Obligations.CfgNamedProperties := by
  unfold Obligations.CfgNamedProperties
  refine ⟨fun k => CFG.exp2_real, fun x => CFG.exp2_pos_finite, fun x hx => ?_, fun x hx => ?_, rfl⟩
  · obtain ⟨hs0, hs1⟩ := Bool.and_eq_true_iff.1 (CFG.inUnit_sin hx)
    obtain ⟨hc0, hc1⟩ := Bool.and_eq_true_iff.1 (CFG.inUnit_cos hx)
    exact ⟨hs0, hs1, hc0, hc1⟩
  · rw [CFG.cos_of_isZero hx]
    exact ⟨CFG.sin_of_isZero hx, by decide +kernel⟩

end Sys2Proof.Machine
end

section
/-! PROOF. Every step keeps every real register canonical (00_scope.md R9). -/

namespace Sys2Proof.Machine

/-! ## The canonical registers, unit by unit

`RegistersCanonical` cut along the units of the state, so that each unit's operations are judged
apart from the others. -/

structure CanonicalSquare (q : Square) : Prop where
  phase : q.phase.isCanonical = true
  frequency : q.frequency.isCanonical = true

structure CanonicalWavetable (w : Wavetable) : Prop where
  phase : w.phase.isCanonical = true
  frequency : w.frequency.isCanonical = true
  pitch_ratio : w.pitch_ratio.isCanonical = true

structure CanonicalSweep (w : Sweep) : Prop where
  shadow_freq : w.shadow_freq.isCanonical = true
  timer : w.timer.isCanonical = true

structure CanonicalEnvelope (e : Envelope) : Prop where
  last_state_value : e.last_state_value.isCanonical = true
  value : e.value.isCanonical = true
  velocity : e.velocity.isCanonical = true
  stutter_velocity : e.stutter_velocity.isCanonical = true

structure CanonicalDac (d : Dac) : Prop where
  b0n : d.b0n.isCanonical = true
  b1n : d.b1n.isCanonical = true
  b2n : d.b2n.isCanonical = true
  a1n : d.a1n.isCanonical = true
  a2n : d.a2n.isCanonical = true
  x1 : d.x1.isCanonical = true
  x2 : d.x2.isCanonical = true
  y1 : d.y1.isCanonical = true
  y2 : d.y2.isCanonical = true

structure CanonicalParams (p : Params) : Prop where
  MasterVolume : p.MasterVolume.isCanonical = true
  PitchBend : p.PitchBend.isCanonical = true
  Detune : p.Detune.isCanonical = true
  SweepAmount : p.SweepAmount.isCanonical = true
  SweepPeriod : p.SweepPeriod.isCanonical = true
  StutterTime : p.StutterTime.isCanonical = true
  StutterDepth : p.StutterDepth.isCanonical = true
  EgAttack : p.EgAttack.isCanonical = true
  EgDecay : p.EgDecay.isCanonical = true
  EgSustain : p.EgSustain.isCanonical = true
  EgRelease : p.EgRelease.isCanonical = true
  NoiseInterval : p.NoiseInterval.isCanonical = true
  DacFreq : p.DacFreq.isCanonical = true
  DacQ : p.DacQ.isCanonical = true

/-- `RegistersCanonical`, by unit. -/
structure CanonicalUnits (s : State) : Prop where
  sq : CanonicalSquare s.sq
  no : s.no.sec_counter.isCanonical = true
  wt : CanonicalWavetable s.wt
  sw : CanonicalSweep s.sw
  env : CanonicalEnvelope s.env
  dac : CanonicalDac s.dac
  vo : s.vo.freq.isCanonical = true
  par : CanonicalParams s.par

theorem registersCanonical_iff {s : State} : RegistersCanonical s = true ↔ CanonicalUnits s := by
  simp only [RegistersCanonical, datapathReals, parameterReals, List.all_cons, List.all_nil,
    Bool.and_true, Bool.and_eq_true]
  constructor
  · rintro ⟨⟨sqp, sqf, no, wtp, wtf, wtr, sws, swt, el, ev, ew, es, b0, b1, b2, a1, a2, x1, x2, y1,
      y2, vo⟩, mv, pb, dt, sa, sp, st, sd, ea, ed, eu, er, ni, df, dq⟩
    exact ⟨⟨sqp, sqf⟩, no, ⟨wtp, wtf, wtr⟩, ⟨sws, swt⟩, ⟨el, ev, ew, es⟩,
      ⟨b0, b1, b2, a1, a2, x1, x2, y1, y2⟩, vo,
      ⟨mv, pb, dt, sa, sp, st, sd, ea, ed, eu, er, ni, df, dq⟩⟩
  · rintro ⟨⟨sqp, sqf⟩, no, ⟨wtp, wtf, wtr⟩, ⟨sws, swt⟩, ⟨el, ev, ew, es⟩,
      ⟨b0, b1, b2, a1, a2, x1, x2, y1, y2⟩, vo,
      ⟨mv, pb, dt, sa, sp, st, sd, ea, ed, eu, er, ni, df, dq⟩⟩
    exact ⟨⟨sqp, sqf, no, wtp, wtf, wtr, sws, swt, el, ev, ew, es, b0, b1, b2, a1, a2, x1, x2, y1,
      y2, vo⟩, mv, pb, dt, sa, sp, st, sd, ea, ed, eu, er, ni, df, dq⟩

/-! ## The values the units form -/

@[simp] theorem isCanonical_exp2 (x : F64) : (CFG.exp2 x).isCanonical = true := by
  simp only [CFG.exp2]
  split
  · split
    · simp
    · split <;> simp
  · simp

@[simp] theorem isCanonical_pitch (note : Byte) : (pitch note).isCanonical = true :=
  F64.isCanonical_mul _ _

@[simp] theorem isCanonical_ratioOf (p : Params) : (ratioOf p).isCanonical = true :=
  isCanonical_exp2 _

theorem isCanonical_of_inRange {lo hi x : F64} (h : inRange lo hi x = true) :
    x.isCanonical = true :=
  F64.isCanonical_of_isNaN_eq_false (F64.lt_iff.1 (inRange_iff.1 h).2).1

/-! ## Each unit's tick keeps its registers canonical -/

theorem canonical_swReset {f : F64} (h : f.isCanonical = true) : CanonicalSweep (swReset f) :=
  ⟨h, F64.isCanonical_zero⟩

theorem canonical_clipCheck {sw : Sweep} (h : CanonicalSweep sw) : CanonicalSweep (clipCheck sw) := by
  obtain ⟨hf, ht, _⟩ := clipCheck_spec sw
  exact ⟨hf ▸ h.shadow_freq, ht ▸ h.timer⟩

/-- What a sweep tick forms is flushed or zero (R148, R149). -/
theorem canonical_swProcess (par : Params) (sr : F64) {sw : Sweep} (h : CanonicalSweep sw) :
    (swProcess par sr sw).1.isCanonical = true ∧ CanonicalSweep (swProcess par sr sw).2 := by
  have upDown : ∀ up, (swUpDown up par sr sw).1.isCanonical = true ∧
      CanonicalSweep (swUpDown up par sr sw).2 := by
    have hd : (sweepDelta sw.shadow_freq par.SweepAmount).isCanonical = true := by
      unfold sweepDelta; split <;> simp
    intro up
    unfold swUpDown
    simp only []
    split
    · cases up
      · exact ⟨by simp, canonical_clipCheck ⟨by simp, by simp⟩⟩
      · exact ⟨hd, canonical_clipCheck ⟨by simp, by simp⟩⟩
    · exact ⟨by simp, h.shadow_freq, F64.isCanonical_nz _⟩
  have triangle : ∀ d : F64, d.isCanonical = true →
      (swTriangle d par sr sw).1.isCanonical = true ∧ CanonicalSweep (swTriangle d par sr sw).2 := by
    intro d hd
    refine ⟨?_, canonical_clipCheck ⟨F64.isCanonical_nz _, ?_⟩⟩
    · unfold swTriangle triangleDelta
      simp only []
      split
      · exact hd
      · split
        · simp
        · exact hd
    · simp only []
      split
      · simp
      · exact F64.isCanonical_nz _
  unfold swProcess
  split
  · exact ⟨by simp, h⟩
  · split
    · exact ⟨by simp, h⟩
    · exact upDown true
    · exact upDown false
    · exact triangle _ (F64.isCanonical_nz _)

theorem canonical_sqAdvance (bend : Bool) (ratio sr : F64) {q : Square}
    (h : q.frequency.isCanonical = true) : CanonicalSquare (sqAdvance bend ratio sr q) :=
  ⟨isCanonical_of_inRange (inRange_wrapUnit _), h⟩

theorem canonical_wtAdvance (sr : F64) {w : Wavetable} (hf : w.frequency.isCanonical = true)
    (hr : w.pitch_ratio.isCanonical = true) : CanonicalWavetable (wtAdvance sr w) :=
  ⟨isCanonical_of_inRange (inRange_wrapTable _), hf, hr⟩

theorem canonical_noAdvance (interval sr : F64) {no : Noise}
    (h : no.sec_counter.isCanonical = true) :
    (noAdvance interval sr no).sec_counter.isCanonical = true := by
  unfold noAdvance
  simp only []
  split
  · exact F64.isCanonical_zero
  · exact F64.isCanonical_add h (F64.isCanonical_div _ _)

theorem canonical_envLeave {e : Envelope} (h : CanonicalEnvelope e) :
    CanonicalEnvelope (envLeave e) := by
  unfold envLeave
  split
  · exact { h with last_state_value := h.value }
  · exact h

theorem canonical_armAt (ev : StutterWhen) (p : Params) {e : Envelope} (h : CanonicalEnvelope e) :
    CanonicalEnvelope (armAt ev p e) := by
  unfold armAt
  split
  · exact { h with stutter_velocity := F64.isCanonical_one }
  · exact { h with }

theorem canonical_envNoteOn (note : Byte) {velocity : F64} (p : Params) {e : Envelope}
    (hv : velocity.isCanonical = true) (h : CanonicalEnvelope e) :
    CanonicalEnvelope (envNoteOn note velocity p e) :=
  canonical_armAt _ _
    { canonical_envLeave h with value := F64.isCanonical_zero, velocity := hv }

theorem canonical_envNoteOff (p : Params) {e : Envelope} (h : CanonicalEnvelope e) :
    CanonicalEnvelope (envNoteOff p e) := by
  refine canonical_armAt _ _ ?_
  unfold envRelease
  split
  · exact { canonical_envLeave (e := { e with note_on := false }) { h with } with }
  · exact { h with }

theorem canonical_stutterStep (par : Params) (sr : F64) {e : Envelope} (h : CanonicalEnvelope e) :
    CanonicalEnvelope (stutterStep par sr e) := by
  cases hd : stutterDue par sr e
  · rw [stutterStep_of_not_due par sr hd]
    exact { h with }
  · rw [stutterStep_of_due par sr hd]
    split
    · exact { h with stutter_velocity := F64.isCanonical_nz _ }
    · refine ⟨?_, F64.isCanonical_zero, h.velocity, F64.isCanonical_nz _⟩
      simp only []
      split
      · exact h.value
      · exact h.last_state_value

theorem canonical_fsmStep (par : Params) (sr : F64) {e : Envelope} (h : CanonicalEnvelope e) :
    CanonicalEnvelope (fsmStep par sr e).2 := by
  unfold fsmStep
  simp only []
  split
  · split
    · exact { h with last_state_value := F64.isCanonical_one }
    · exact h
  · split
    · exact { canonical_envLeave h with }
    · exact h
  · split
    · exact { h with }
    · exact h
  · exact h
  · exact h

/-- The curve is flushed, but in Sustain, where it is the parameter itself (R169). -/
theorem isCanonical_curve {par : Params} (s : F64) (e : Envelope)
    (h : par.EgSustain.isCanonical = true) : (curve par s e).isCanonical = true := by
  unfold curve
  split
  case h_3 => exact h
  all_goals simp

theorem canonical_envAdvance {par : Params} (sr : F64) {e : Envelope}
    (hp : par.EgSustain.isCanonical = true) (h : CanonicalEnvelope e) :
    CanonicalEnvelope (envAdvance par sr e) :=
  { canonical_fsmStep par sr (canonical_stutterStep par sr h) with
    value := isCanonical_curve _ _ hp }

/-- The coefficients are flushed, the history stays (R192). -/
theorem canonical_dacRecompute (par : Params) (sr : F64) {d : Dac} (h : CanonicalDac d) :
    CanonicalDac (dacRecompute par sr d) := by
  obtain ⟨_, hx1, hx2, hy1, hy2⟩ := dacRecompute_spec par sr d
  constructor
  case x1 => rw [hx1]; exact h.x1
  case x2 => rw [hx2]; exact h.x2
  case y1 => rw [hy1]; exact h.y1
  case y2 => rw [hy2]; exact h.y2
  all_goals simp [dacRecompute]

theorem canonical_dacRefresh (par : Params) (sr : F64) {d : Dac} (h : CanonicalDac d) :
    CanonicalDac (dacRefresh par sr d) := by
  unfold dacRefresh
  split
  · exact canonical_dacRecompute par sr h
  · exact h

theorem canonical_dacProcess (par : Params) (sr : F64) (n : Nibble) {d : Dac} (h : CanonicalDac d) :
    CanonicalDac (dacProcess par sr n d).2 :=
  have hr := canonical_dacRefresh par sr h
  { hr with
    x1 := F64.isCanonical_of_isNaN_eq_false (F64.isNaN_eq_false_of_isFinite (isFinite_toFloat n))
    x2 := hr.x1
    y1 := F64.isCanonical_nz _
    y2 := hr.y1 }

/-! ## A parameter write keeps the parameters canonical -/

theorem storeCode_canonical {α : Type} {c : Option α} {w : α → Params} {s t : State}
    (h : storeCode c w s = .next t) (hw : ∀ k, CanonicalParams (w k)) (hp : CanonicalParams s.par) :
    CanonicalParams t.par := by
  rcases storeCode_cases h with ⟨k, _, rfl⟩ | ⟨_, rfl⟩
  · exact hw k
  · exact hp

/-- A `SET_PARAM` stores its operand or an enumeration code, or nothing (R211). -/
theorem exec_setParam_canonical {i : Instr} {s t : State} (hset : isSetParam i)
    (h : exec i s = .next t) (hi : i.wf = true) (hp : CanonicalParams s.par) :
    CanonicalParams t.par := by
  obtain ⟨c, hc, v, rfl⟩ := hset
  simp only [allSetters, List.mem_cons, List.not_mem_nil, or_false] at hc
  rcases hc with rfl | rfl | rfl | rfl | rfl | rfl | rfl | rfl | rfl | rfl | rfl | rfl | rfl | rfl |
    rfl | rfl | rfl | rfl
  · cases h; exact { hp with MasterVolume := hi }
  · cases h; exact { hp with PitchBend := hi }
  · cases h; exact { hp with Detune := hi }
  · exact storeCode_canonical h (fun _ => { hp with }) hp
  · exact storeCode_canonical h (fun _ => { hp with }) hp
  · cases h; exact { hp with SweepAmount := hi }
  · cases h; exact { hp with SweepPeriod := hi }
  · cases h; exact { hp with StutterTime := hi }
  · cases h; exact { hp with StutterDepth := hi }
  · exact storeCode_canonical h (fun _ => { hp with }) hp
  · cases h; exact { hp with EgAttack := hi }
  · cases h; exact { hp with EgDecay := hi }
  · cases h; exact { hp with EgSustain := hi }
  · cases h; exact { hp with EgRelease := hi }
  · exact storeCode_canonical h (fun _ => { hp with }) hp
  · cases h; exact { hp with NoiseInterval := hi }
  · cases h; exact { hp with DacFreq := hi }
  · cases h; exact { hp with DacQ := hi }

/-! ## Every command keeps the registers canonical -/

theorem exec_keeps_canonical_of_ne_process {i : Instr} {s t : State} (hp : ∀ sr, i ≠ .process sr)
    (hi : i.wf = true) (h : exec i s = .next t) (hs : CanonicalUnits s) : CanonicalUnits t := by
  obtain ⟨hno, hsq, hvo, hwt, hsw, henv, hdac, hpar⟩ := exec_units h hp
  constructor
  case sq =>
    rcases hsq with e | ⟨n, _, _, e⟩ <;> rw [e]
    · exact hs.sq
    · exact { hs.sq with frequency := isCanonical_pitch n }
  case no => rw [hno]; exact hs.no
  case wt =>
    rcases hwt with e | ⟨n, _, _, e⟩ | ⟨r, hr, e⟩ | ⟨_, e⟩ <;> rw [e]
    · exact hs.wt
    · exact { hs.wt with frequency := isCanonical_pitch n }
    · refine { hs.wt with pitch_ratio := ?_ }
      rcases hr with rfl | ⟨_, rfl⟩
      · exact hi
      · exact isCanonical_ratioOf _
    · exact { hs.wt with }
  case sw =>
    rcases hsw with e | ⟨n, _, _, e⟩ | ⟨f, rfl, e⟩ <;> rw [e]
    · exact hs.sw
    · exact canonical_swReset (isCanonical_pitch n)
    · exact canonical_swReset hi
  case env =>
    rcases henv with e | ⟨n, v, rfl, e⟩ | ⟨_, _, e⟩ <;> rw [e]
    · exact hs.env
    · exact canonical_envNoteOn n _ hi hs.env
    · exact canonical_envNoteOff _ hs.env
  case dac =>
    rcases hdac with e | ⟨_, e⟩ <;> rw [e]
    · exact hs.dac
    · exact { hs.dac with }
  case vo =>
    rcases hvo with e | ⟨n, _, _, e⟩ <;> rw [e]
    · exact hs.vo
    · exact isCanonical_pitch n
  case par =>
    rcases hpar with e | hset
    · rw [e]; exact hs.par
    · exact exec_setParam_canonical hset h hi hs.par

theorem finishTick_keeps_canonical (sr : F64) (o : Nibble) {u : State} (hu : CanonicalUnits u) :
    CanonicalUnits (finishTick sr o u) :=
  { hu with
    env := canonical_envAdvance sr hu.par.EgSustain hu.env
    dac := canonical_dacProcess _ sr _ hu.dac }

/-- `PROCESS`: sweep, running frequency and the selected oscillator, then the rest of the tick. -/
theorem process_keeps_canonical {sr : F64} {s t : State} (h : exec (.process sr) s = .next t)
    (hs : CanonicalUnits s) : CanonicalUnits t := by
  obtain ⟨_, o, u, rfl, hpar, henv, hdac, _, _, hcase⟩ := process_cases h
  refine finishTick_keeps_canonical sr o ?_
  rcases hcase with ⟨_, _, rfl⟩ | ⟨_, hsw, hvo, hosc⟩
  · exact hs
  obtain ⟨hdelta, hsweep⟩ := canonical_swProcess s.par sr hs.sw
  have hfreq : u.vo.freq.isCanonical = true := hvo ▸ F64.isCanonical_add hs.vo hdelta
  obtain ⟨hsq, hno, hwt⟩ : CanonicalSquare u.sq ∧ u.no.sec_counter.isCanonical = true ∧
      CanonicalWavetable u.wt := by
    rcases hosc with ⟨_, _, hsq, hno, hwt⟩ | ⟨_, hno, hsq, hwt⟩ | ⟨_, hwt, hsq, hno⟩ <;>
      rw [hsq, hno, hwt]
    · exact ⟨canonical_sqAdvance _ _ _ hfreq, hs.no, hs.wt⟩
    · exact ⟨hs.sq, canonical_noAdvance _ _ hs.no, hs.wt⟩
    · exact ⟨hs.sq, hs.no, canonical_wtAdvance _ hfreq hs.wt.pitch_ratio⟩
  exact ⟨hsq, hno, hwt, hsw ▸ hsweep, henv ▸ hs.env, hdac ▸ hs.dac, hfreq, hpar ▸ hs.par⟩

theorem exec_keeps_canonical {i : Instr} {s t : State} (hi : i.wf = true) (h : exec i s = .next t)
    (hs : CanonicalUnits s) : CanonicalUnits t := by
  by_cases hp : ∃ sr, i = .process sr
  · obtain ⟨sr, rfl⟩ := hp
    exact process_keeps_canonical h hs
  · exact exec_keeps_canonical_of_ne_process (fun sr e => hp ⟨sr, e⟩) hi h hs

/-! ## Every step -/

theorem setParamOf_wf {id : Byte} {v : F64} {i : Instr} (hv : v.isCanonical = true)
    (h : setParamOf id v = some i) : i.wf = true := by
  unfold setParamOf at h
  split at h <;> cases h <;> exact hv

theorem getParamOf_wf {id : Byte} {i : Instr} (h : getParamOf id = some i) : i.wf = true := by
  unfold getParamOf at h
  split at h <;> cases h <;> rfl

/-- The decoder reads every NaN operand as the one NaN (notes/assumptions 9, 19). -/
theorem decode_wf {w : CommandWord} {i : Instr} (h : decode w = .ok i) : i.wf = true := by
  have hv := isCanonical_realOperand w
  unfold decode at h
  split at h
  case h_8 =>
    split at h <;> cases h
    rename_i hset; exact setParamOf_wf hv hset
  case h_9 =>
    split at h <;> cases h
    rename_i hget; exact getParamOf_wf hget
  all_goals cases h
  all_goals first | exact hv | rfl

/-- What a step that answers a next state has done: nothing, an illegal word refused, or a decoded
command executed. -/
theorem step_cases {s t : State} (h : step s = .next t) :
    t = s ∨ ∃ rest, t = raise .illegalCommand (s.setCommands rest) ∨
      ∃ w i, decode w = .ok i ∧ exec i (s.setCommands rest) = .next t := by
  unfold step at h
  split at h
  · exact .inl (by simpa using h.symm)
  · rename_i w rest _
    refine .inr ⟨rest, ?_⟩
    split at h
    · rename_i i hd
      exact .inr ⟨w, i, hd, h⟩
    · exact .inl (by simpa using h.symm)

/-- Settles O58: the decoder hands over canonical operands, and each unit keeps its registers canonical
under every command. -/
theorem registersStayCanonical : Obligations.RegistersStayCanonical := by
  unfold Obligations.RegistersStayCanonical
  intro s t hs h
  rw [registersCanonical_iff] at hs ⊢
  rcases step_cases h with rfl | ⟨rest, rfl | ⟨w, i, hd, hexec⟩⟩
  · exact hs
  · exact { hs with }
  · exact exec_keeps_canonical (decode_wf hd) hexec { hs with }

end Sys2Proof.Machine
end

section
/-! PROOF. Every step keeps the two phases in range (10_state.md R22, R24), and only their commands
write the wavetable and the parameters (R33, R40). -/

namespace Sys2Proof.Machine

/-! ## What the rest of a tick leaves unchanged -/

section
variable (sr : F64) (o : Nibble) (u : State)
@[simp] theorem finishTick_sq : (finishTick sr o u).sq = u.sq := rfl
@[simp] theorem finishTick_wt : (finishTick sr o u).wt = u.wt := rfl
@[simp] theorem finishTick_par : (finishTick sr o u).par = u.par := rfl
end

/-! ## The phases -/

/-- A step that keeps each phase or reduces it anew keeps both in range. -/
theorem phasesInRange_of_kept_or_wrapped {s t : State} (hs : PhasesInRange s = true)
    (hsq : t.sq.phase = s.sq.phase ∨ ∃ x, t.sq.phase = wrapUnit x)
    (hwt : t.wt.phase = s.wt.phase ∨ ∃ x, t.wt.phase = wrapTable x) : PhasesInRange t = true := by
  obtain ⟨hsq0, hwt0⟩ := Bool.and_eq_true_iff.1 hs
  refine Bool.and_eq_true_iff.2 ⟨?_, ?_⟩
  · rcases hsq with e | ⟨x, e⟩ <;> rw [e]
    · exact hsq0
    · exact inRange_wrapUnit x
  · rcases hwt with e | ⟨x, e⟩ <;> rw [e]
    · exact hwt0
    · exact inRange_wrapTable x

/-- No command but `PROCESS` writes a phase. -/
theorem exec_phases_of_ne_process {i : Instr} {s t : State} (hp : ∀ sr, i ≠ .process sr)
    (h : exec i s = .next t) : t.sq.phase = s.sq.phase ∧ t.wt.phase = s.wt.phase := by
  obtain ⟨_, hsq, _, hwt, _⟩ := exec_units h hp
  constructor
  · rcases hsq with e | ⟨_, _, _, e⟩ <;> rw [e]
  · rcases hwt with e | ⟨_, _, _, e⟩ | ⟨_, _, e⟩ | ⟨_, e⟩ <;> rw [e]

/-- A tick keeps a phase or reduces it anew, whatever the frequency, the ratio and the rate
(R112, R132). -/
theorem process_phases {sr : F64} {s t : State} (h : exec (.process sr) s = .next t) :
    (t.sq.phase = s.sq.phase ∨ ∃ x, t.sq.phase = wrapUnit x) ∧
      (t.wt.phase = s.wt.phase ∨ ∃ x, t.wt.phase = wrapTable x) := by
  obtain ⟨_, o, u, rfl, _, _, _, _, _, hcase⟩ := process_cases h
  rw [finishTick_sq, finishTick_wt]
  rcases hcase with ⟨_, _, rfl⟩ | ⟨_, _, _, hosc⟩
  · exact ⟨.inl rfl, .inl rfl⟩
  rcases hosc with ⟨_, _, hsq, _, hwt⟩ | ⟨_, _, hsq, hwt⟩ | ⟨_, hwt, hsq, _⟩ <;> rw [hsq, hwt]
  · exact ⟨.inr ⟨_, rfl⟩, .inl rfl⟩
  · exact ⟨.inl rfl, .inl rfl⟩
  · exact ⟨.inl rfl, .inr ⟨_, rfl⟩⟩

theorem exec_keeps_phasesInRange {i : Instr} {s t : State} (h : exec i s = .next t)
    (hs : PhasesInRange s = true) : PhasesInRange t = true := by
  by_cases hp : ∃ sr, i = .process sr
  · obtain ⟨sr, rfl⟩ := hp
    obtain ⟨hsq, hwt⟩ := process_phases h
    exact phasesInRange_of_kept_or_wrapped hs hsq hwt
  · obtain ⟨hsq, hwt⟩ := exec_phases_of_ne_process (fun sr e => hp ⟨sr, e⟩) h
    exact phasesInRange_of_kept_or_wrapped hs (.inl hsq) (.inl hwt)

/-- Settles O56: a phase is written by a reduction of a tick only, and a reduction answers a value in
range for every operand. -/
theorem phasesStayInRange : Obligations.PhasesStayInRange := by
  unfold Obligations.PhasesStayInRange
  intro s t hs h
  rcases step_cases h with rfl | ⟨rest, rfl | ⟨w, i, _, hexec⟩⟩
  · exact hs
  · exact hs
  · exact exec_keeps_phasesInRange hexec hs

/-! ## The writers of the wavetable and of the parameters -/

/-- A tick reads the wavetable and the parameters and writes neither. -/
theorem process_keeps_table_and_par {sr : F64} {s t : State} (h : exec (.process sr) s = .next t) :
    t.wt.table = s.wt.table ∧ t.par = s.par := by
  obtain ⟨_, o, u, rfl, hpar, _, _, _, _, hcase⟩ := process_cases h
  rw [finishTick_wt, finishTick_par]
  refine ⟨?_, hpar⟩
  rcases hcase with ⟨_, _, rfl⟩ | ⟨_, _, _, hosc⟩
  · rfl
  rcases hosc with ⟨_, _, _, _, hwt⟩ | ⟨_, _, _, hwt⟩ | ⟨_, hwt, _, _⟩
  · rw [hwt]
  · rw [hwt]
  · rw [hwt]; rfl

/-- A command other than `PROCESS` keeps the wavetable, or it is a table command. -/
theorem exec_table_kept_or_writesTable {i : Instr} {s t : State} (hp : ∀ sr, i ≠ .process sr)
    (h : exec i s = .next t) : t.wt.table = s.wt.table ∨ writesTable i := by
  obtain ⟨_, _, _, hwt, _⟩ := exec_units h hp
  rcases hwt with e | ⟨_, _, _, e⟩ | ⟨_, _, e⟩ | ⟨hw, _⟩
  · exact .inl (by rw [e])
  · exact .inl (by rw [e])
  · exact .inl (by rw [e])
  · exact .inr hw

/-- Settles O21: a tick writes neither, and every other command does to each unit what `exec_units`
says. -/
theorem onlyTheirCommandsWriteTableAndParameters :
    Obligations.OnlyTheirCommandsWriteTableAndParameters := by
  unfold Obligations.OnlyTheirCommandsWriteTableAndParameters
  intro i s t h
  by_cases hp : ∃ sr, i = .process sr
  · obtain ⟨sr, rfl⟩ := hp
    obtain ⟨htable, hpar⟩ := process_keeps_table_and_par h
    exact ⟨fun hne => absurd htable hne, fun hne => absurd hpar hne⟩
  · have hp : ∀ sr, i ≠ .process sr := fun sr e => hp ⟨sr, e⟩
    obtain ⟨_, _, _, _, _, _, _, hpar⟩ := exec_units h hp
    exact ⟨(exec_table_kept_or_writesTable hp h).resolve_left, hpar.resolve_left⟩

end Sys2Proof.Machine
end

section
/-! PROOF. A command of 20_memory.md R65 executed twice leaves the block of its first execution, and
with the phases in range a step completes unless its sample rate is refused (R62, R253, R235). -/

namespace Sys2Proof.Machine

/-! ## Repetition -/

/-- After an answer of `m`, a second run of `m` completes and keeps the block. -/
def RepeatKeepsBlock (m : State → Answer) : Prop :=
  ∀ s t : State, m s = .next t → ∃ u, m t = .next u ∧ SameBlock t u

/-- A meaning that always completes repeats without effect when its update does. -/
theorem repeatKeepsBlock_next {f : State → State} (hf : ∀ s, SameBlock (f s) (f (f s))) :
    RepeatKeepsBlock fun s => .next (f s) := by
  rintro s _ ⟨⟩
  exact ⟨_, rfl, hf s⟩

/-- A `GET_PARAM` changes nothing of the block, so neither does its repetition (R231). -/
theorem repeatKeepsBlock_loadParam (v : State → F64) :
    RepeatKeepsBlock fun s => loadParam (v s) s :=
  repeatKeepsBlock_next fun s => respondReal_sameBlock (v _) (respondReal (v s) s)

/-- The other reads change nothing of the block either. -/
theorem repeatKeepsBlock_respond (d : State → Data) :
    RepeatKeepsBlock fun s => .next (respond (d s) s) :=
  repeatKeepsBlock_next fun s => by simp [SameBlock]

/-- Setting the flag twice is setting it once (R191). -/
@[simp] theorem markDirty_markDirty (d : Dac) : markDirty (markDirty d) = markDirty d := rfl

/-! A `SET_PARAM` stores `w s` in the parameter registers, and it stores the same again where they
already hold it. -/

section
variable {w : State → Params} (hw : ∀ s t : State, t.par = w s → w t = w s)
include hw

/-- A parameter written (R211). -/
theorem repeatKeepsBlock_storeParam : RepeatKeepsBlock fun s => storeParam (w s) s :=
  repeatKeepsBlock_next fun s => by
    have hsame := hw s (done (s.setPar (w s))) rfl
    simp [SameBlock, hsame]

/-- A semitone offset written: the same parameters give the same ratio (R212). -/
theorem repeatKeepsBlock_storeOffset : RepeatKeepsBlock fun s => storeOffset (w s) s :=
  repeatKeepsBlock_next fun s => by
    have hsame :=
      hw s (done ((s.setPar (w s)).setWt { s.wt with pitch_ratio := ratioOf (w s) })) rfl
    simp [SameBlock, hsame]

/-- A DAC parameter written: the flag is set already (R229, R230). -/
theorem repeatKeepsBlock_storeDac : RepeatKeepsBlock fun s => storeDac (w s) s :=
  repeatKeepsBlock_next fun s => by
    have hsame := hw s (done ((s.setPar (w s)).setDac (markDirty s.dac))) rfl
    simp [SameBlock, hsame]

end

/-- An enumeration write stores the same code again, or rejects the same value again (R211,
R250). -/
theorem repeatKeepsBlock_storeCode {α : Type} (c : Option α) {w : State → α → Params}
    (hw : ∀ k s t, t.par = w s k → w t k = w s k) :
    RepeatKeepsBlock fun s => storeCode c (w s) s := by
  cases c with
  | none => exact repeatKeepsBlock_next fun s => by simp [SameBlock]
  | some k => exact repeatKeepsBlock_storeParam (hw k)

/-- A table written whole is the same the second time (R135, R136). -/
theorem repeatKeepsBlock_setTable (tbl : Vector Nibble WT_LEN) :
    RepeatKeepsBlock fun s => .next (done (s.setTable tbl)) :=
  repeatKeepsBlock_next fun s => by simp [SameBlock]

/-- An entry written twice is the entry written once; an index outside the table writes neither
time. -/
theorem tabWrite_tabWrite (t : Vector Nibble WT_LEN) (i : Nat) (v : Nibble) :
    tabWrite (tabWrite t i v) i v = tabWrite t i v := by
  refine Vector.ext fun j hj => ?_
  simp only [tabWrite_getElem _ _ _ j hj]
  split <;> rfl

/-- `SET_WT_SAMPLE` writes the same entry again (R134). -/
theorem repeatKeepsBlock_setWtSample (idx : Byte) (v : Nibble) :
    RepeatKeepsBlock (execSetWtSample idx v) :=
  repeatKeepsBlock_next fun s => by simp [SameBlock, tabWrite_tabWrite]

/-- Each idempotent command by its family: a read, or a write that stores the same again. -/
theorem exec_repeatKeepsBlock {i : Instr} (hi : isIdempotent i = true) :
    RepeatKeepsBlock (exec i) := by
  cases i
  case noteOn | noteOff | process | resetWtRandom => cases hi
  case pitchBend | sweepReset => exact repeatKeepsBlock_next fun s => by simp [SameBlock]
  case setWtSample idx v => exact repeatKeepsBlock_setWtSample idx v
  case resetWtSine | setWavetable => exact repeatKeepsBlock_setTable _
  case setParamPitchBend | setParamDetune =>
    exact repeatKeepsBlock_storeOffset fun _ _ h => by simp only [h]
  case setParamDacFreq | setParamDacQ =>
    exact repeatKeepsBlock_storeDac fun _ _ h => by simp only [h]
  case setParamOscType | setParamSweepType | setParamStutterWhen | setParamSquareDuty =>
    exact repeatKeepsBlock_storeCode _ fun _ _ _ h => by simp only [h]
  case setParamMasterVolume | setParamSweepAmount | setParamSweepPeriod | setParamStutterTime |
      setParamStutterDepth | setParamEgAttack | setParamEgDecay | setParamEgSustain |
      setParamEgRelease | setParamNoiseInterval =>
    exact repeatKeepsBlock_storeParam fun _ _ h => by simp only [h]
  case getWavetable | queryAssignable | getStatus => exact repeatKeepsBlock_respond _
  -- the eighteen `GET_PARAM`
  all_goals exact repeatKeepsBlock_loadParam _

/-- Settles O22, by the meaning of each command: reads keep the block, and a write repeated stores
what is already there. -/
theorem idempotentCommands : Obligations.IdempotentCommands := by
  unfold Obligations.IdempotentCommands
  exact fun i s t hi h => exec_repeatKeepsBlock hi s t h

/-! ## Completion -/

/-- An enumeration write is answered for every value (R211, R250). -/
theorem storeCode_completes {α : Type} (c : Option α) (w : α → Params) (s : State) :
    ∃ t, storeCode c w s = .next t := by
  cases c <;> exact ⟨_, rfl⟩

/-- Every command but `PROCESS` completes in every state. -/
theorem exec_completes_of_ne_process {i : Instr} (hp : ∀ sr, i ≠ .process sr) (s : State) :
    ∃ t, exec i s = .next t := by
  cases i
  case process sr => exact absurd rfl (hp sr)
  case setParamOscType | setParamSweepType | setParamStutterWhen | setParamSquareDuty =>
    exact storeCode_completes _ _ s
  all_goals exact ⟨_, rfl⟩

/-- An accepted `PROCESS` completes with the phases in range: only the look-up could fault, and its
index is in the table (R62). -/
theorem process_completes {sr : F64} {s : State} (hs : PhasesInRange s = true)
    (ha : acceptedRate sr = true) : ∃ t, exec (.process sr) s = .next t := by
  obtain ⟨r, hr⟩ := sampleStage_ok sr hs
  exact ⟨outputStage sr r.1 r.2, by simp [exec, execProcess, ha, hr]⟩

/-- A rate that is not finite and positive is refused (R235). -/
theorem process_refused {sr : F64} (ha : acceptedRate sr = false) (s : State) :
    exec (.process sr) s = .refused .sampleRateNotFinitePositive := by
  simp [exec, execProcess, ha]

/-- A step with a word that decodes executes its command with the word taken from the port. -/
theorem step_of_decode_ok {s : State} {w : CommandWord} {rest : List CommandWord} {i : Instr}
    (hc : s.port.commands = w :: rest) (hd : decode w = .ok i) :
    step s = exec i (s.setCommands rest) := by
  simp [step, hc, hd]

/-- Settles O59: an idle step and an illegal word complete, and of the commands only `PROCESS` can
stop, with the phases in range by its rate alone. -/
theorem stepsComplete : Obligations.StepsComplete := by
  unfold Obligations.StepsComplete
  intro s hs
  cases hc : s.port.commands with
  | nil => exact .inl ⟨s, by simp [step, hc]⟩
  | cons w rest =>
    cases hd : decode w with
    | error e =>
      exact .inl ⟨raise .illegalCommand (s.setCommands rest), by simp only [step, hc, hd]⟩
    | ok i =>
      rw [step_of_decode_ok hc hd]
      by_cases hp : ∃ sr, i = .process sr
      · obtain ⟨sr, rfl⟩ := hp
        cases ha : acceptedRate sr with
        | true => exact .inl (process_completes (s := s.setCommands rest) hs ha)
        | false => exact .inr ⟨process_refused ha _, w, rest, sr, rfl, hd, ha⟩
      · exact .inl (exec_completes_of_ne_process (fun sr e => hp ⟨sr, e⟩) _)

end Sys2Proof.Machine
end

section
/-! PROOF. Decoding and encoding (30_encoding.md R80 to R87): the round trip, totality with the
reserved encodings, the fields a format ignores, and the step that runs the decoded command. -/

namespace Sys2Proof.Machine

/-! ## The round trip -/

/-- A parameter id of `SET_PARAM` and a real value decode to the id's row (R85). -/
theorem decode_setParam {id : Byte} {v : F64} {i : Instr} (hv : v.isCanonical = true)
    (hi : setParamOf id v = some i) : decode (commandWord 0x08 id (realData v)) = .ok i := by
  simp [decode, hv, hi]

/-- A parameter id of `GET_PARAM` decodes to the id's row, whatever the data (R85). -/
theorem decode_getParam {id : Byte} {d : Data} {i : Instr} (hi : getParamOf id = some i) :
    decode (commandWord 0x09 id d) = .ok i := by
  simp [decode, hi]

/-- Settles O2: the decoder's arm is fixed by the opcode the encoder wrote, and for a parameter by
its id; each operand is read back from its field. -/
theorem decodeEncodeRoundTrip : Obligations.DecodeEncodeRoundTrip := by
  unfold Obligations.DecodeEncodeRoundTrip
  intro i hi
  cases i
  case noteOn note v | pitchBend v | sweepReset v | process v =>
    have hv : v.isCanonical = true := hi
    simp [encode, decode, hv]
  case noteOff | setWtSample | resetWtSine | resetWtRandom | getWavetable | setWavetable
      | queryAssignable | getStatus =>
    simp [encode, decode]
  case getParamMasterVolume | getParamPitchBend | getParamDetune | getParamOscType
      | getParamSweepType | getParamSweepAmount | getParamSweepPeriod | getParamStutterTime
      | getParamStutterDepth | getParamStutterWhen | getParamEgAttack | getParamEgDecay
      | getParamEgSustain | getParamEgRelease | getParamSquareDuty | getParamNoiseInterval
      | getParamDacFreq | getParamDacQ =>
    exact decode_getParam rfl
  all_goals exact decode_setParam hi rfl

/-! ## Totality -/

/-- The ids from 18 on have no `SET_PARAM` row (R87). -/
theorem setParamOf_eq_none_iff {id : Byte} {v : F64} :
    setParamOf id v = none ↔ 18 ≤ id.toNat := by
  unfold setParamOf
  split
  case h_19 => simp only [imp_false, true_iff] at *; omega
  all_goals simp [*]

/-- The ids from 18 on have no `GET_PARAM` row (R87). -/
theorem getParamOf_eq_none_iff {id : Byte} : getParamOf id = none ↔ 18 ≤ id.toNat := by
  unfold getParamOf
  split
  case h_19 => simp only [imp_false, true_iff] at *; omega
  all_goals simp [*]

theorem opField_encode_of_setParamOf {id : Byte} {v : F64} {i : Instr}
    (h : setParamOf id v = some i) : opField (encode i) = 0x08 := by
  unfold setParamOf at h
  split at h <;> cases h <;> exact opField_commandWord ..

theorem opField_encode_of_getParamOf {id : Byte} {i : Instr} (h : getParamOf id = some i) :
    opField (encode i) = 0x09 := by
  unfold getParamOf at h
  split at h <;> cases h <;> exact opField_commandWord ..

/-- A command keeps the opcode of the word it was decoded from. -/
theorem opField_encode_of_decode {w : CommandWord} {i : Instr} (h : decode w = .ok i) :
    opField (encode i) = opField w := by
  rw [← BitVec.toNat_inj]
  unfold decode at h
  split at h
  case h_15 => cases h
  all_goals rename_i hop; rw [hop]
  case h_8 =>
    split at h <;> cases h
    rename_i hset; rw [opField_encode_of_setParamOf hset]; rfl
  case h_9 =>
    split at h <;> cases h
    rename_i hget; rw [opField_encode_of_getParamOf hget]; rfl
  all_goals cases h; exact congrArg BitVec.toNat (opField_commandWord ..)

/-- The decoder refuses exactly the reserved encodings (R86, R87). -/
theorem isReserved_iff_decode_error {w : CommandWord} :
    isReserved w = true ↔ ∃ e, decode w = .error e := by
  unfold decode
  split
  case h_8 hop =>
    have hid := setParamOf_eq_none_iff (id := idxField w) (v := realOperand w)
    cases hs : setParamOf (idxField w) (realOperand w) <;> simp [isReserved, hop, ← hid, hs]
  case h_9 hop =>
    have hid := getParamOf_eq_none_iff (id := idxField w)
    cases hs : getParamOf (idxField w) <;> simp [isReserved, hop, ← hid, hs]
  case h_15 =>
    have hop : (opField w).toNat = 0 ∨ 0x0F ≤ (opField w).toNat := by
      simp only [imp_false] at *; omega
    simp [isReserved, hop]
  all_goals simp [isReserved, *]

/-- Settles O3: the decoder refuses exactly the reserved words, and a command it answers is well
formed and of the word's opcode. -/
theorem decodeIsTotal : Obligations.DecodeIsTotal := by
  unfold Obligations.DecodeIsTotal
  intro w
  cases hd : decode w with
  | error e => exact .inl ⟨isReserved_iff_decode_error.2 ⟨e, hd⟩, e, rfl⟩
  | ok i =>
    refine .inr ⟨?_, i, rfl, decode_wf hd, opField_encode_of_decode hd⟩
    rw [Bool.eq_false_iff, Ne, isReserved_iff_decode_error, hd]
    simp

/-! ## Fields a format does not use -/

/-- A real operand with the bits above it cleared is the same operand (R83). -/
theorem realOperand_commandWord_low (op idx : Byte) (w : CommandWord) :
    realOperand (commandWord op idx ((0#64) ++ (dataField w).extractLsb' 0 64)) =
      realOperand w := by
  rw [realOperand, dataField_commandWord]
  exact congrArg F64.ofBits (low_realData ⟨(dataField w).extractLsb' 0 64⟩)

/-- The decoder does not read the fields that `zeroUnused` clears (R82). -/
theorem decode_zeroUnused (w : CommandWord) : decode (zeroUnused w) = decode w := by
  unfold zeroUnused
  split
  case h_1 hop | h_2 hop | h_6 hop | h_7 hop | h_8 hop =>
    simp [decode, hop, realOperand_commandWord_low]
  case h_15 => rfl
  all_goals simp [decode, *]

/-- A real in the data field leaves the bits above it zero (R83). -/
theorem low_realData_append (v : F64) : (0#64) ++ (realData v).extractLsb' 0 64 = realData v :=
  congrArg ((0#64) ++ ·) (low_realData v)

/-- The word of a `SET_PARAM` has no unused field set. -/
theorem zeroUnused_setParam (id : Byte) (v : F64) :
    zeroUnused (commandWord 0x08 id (realData v)) = commandWord 0x08 id (realData v) := by
  simp [zeroUnused, low_realData_append]

/-- The word of a `GET_PARAM` has no unused field set. -/
theorem zeroUnused_getParam (id : Byte) :
    zeroUnused (commandWord 0x09 id 0) = commandWord 0x09 id 0 := by
  simp [zeroUnused]

/-- The encoder writes zero in the fields its format does not use (R82). -/
theorem zeroUnused_encode (i : Instr) : zeroUnused (encode i) = encode i := by
  cases i
  case noteOn | pitchBend | sweepReset | process => simp [encode, zeroUnused, low_realData_append]
  case noteOff | queryAssignable | setWtSample | setWavetable | resetWtSine | resetWtRandom
      | getWavetable | getStatus =>
    simp [encode, zeroUnused]
  case getParamMasterVolume | getParamPitchBend | getParamDetune | getParamOscType
      | getParamSweepType | getParamSweepAmount | getParamSweepPeriod | getParamStutterTime
      | getParamStutterDepth | getParamStutterWhen | getParamEgAttack | getParamEgDecay
      | getParamEgSustain | getParamEgRelease | getParamSquareDuty | getParamNoiseInterval
      | getParamDacFreq | getParamDacQ =>
    exact zeroUnused_getParam _
  all_goals exact zeroUnused_setParam _ _

/-- Settles O5: the decoder and the encoder use the same fields of each format. -/
theorem unusedFieldsAreIgnored : Obligations.UnusedFieldsAreIgnored := by
  unfold Obligations.UnusedFieldsAreIgnored
  exact ⟨decode_zeroUnused, zeroUnused_encode⟩

/-! ## Words of the spec, and the step -/

/-- Settles O1, by evaluation: the statement is about seven fixed words. -/
theorem workedWordsDecode : Obligations.WorkedWordsDecode := by
  unfold Obligations.WorkedWordsDecode
  decide +kernel

/-- A step with no command on the port is idle (notes/assumptions 1). -/
theorem step_of_no_command {s : State} (hc : s.port.commands = []) : step s = .next s := by
  simp [step, hc]

/-- Settles O6: the two cases are the first word of the port decoding and the port being empty. -/
theorem stepRunsTheDecodedCommand : Obligations.StepRunsTheDecodedCommand := by
  unfold Obligations.StepRunsTheDecodedCommand
  exact ⟨fun _ _ _ _ hc hd => step_of_decode_ok hc hd, fun _ => step_of_no_command⟩

end Sys2Proof.Machine
end

section
/-! PROOF. The Nibble's conversions and its arithmetic (40_nibble.md R101 to R105). -/

namespace Sys2Proof.F64

theorem isInf_eq_false_of_isFinite {x : F64} (h : x.isFinite = true) : x.isInf = false := by
  simp only [isFinite, isInf, decide_eq_true_eq, beq_eq_false_iff_ne] at *
  omega

/-- A product of finite numbers is a rounded number, zeros included; it may overflow. -/
theorem isNaN_mul_of_isFinite {x y : F64} (hx : x.isFinite = true) (hy : y.isFinite = true) :
    (x.mul y).isNaN = false := by
  simp [mul, isNaN_eq_false_of_isFinite hx, isNaN_eq_false_of_isFinite hy,
    isInf_eq_false_of_isFinite hx, isInf_eq_false_of_isFinite hy]

/-- A number that is not finite is an infinity. -/
theorem isInf_of_not_isFinite {x : F64} (hn : x.isNaN = false) (hf : x.isFinite = false) :
    x.isInf = true := by
  by_contra hi
  rw [isFinite_of_not_isNaN_of_not_isInf hn (by simpa using hi)] at hf
  cases hf

theorem not_lt_of_ge {x y : F64} (h : x.ge y = true) : x.lt y = false := by
  obtain ⟨hx, hy, _⟩ := ge_iff.1 h
  rw [ge_eq_not_lt hx hy] at h
  simpa using h

theorem clamp_of_lt {lo hi v : F64} (h : v.lt lo = true) : clamp lo hi v = lo := by
  simp [clamp, h]

theorem clamp_of_gt {lo hi v : F64} (hlo : v.ge lo = true) (h : v.gt hi = true) :
    clamp lo hi v = hi := by
  simp [clamp, not_lt_of_ge hlo, h]

theorem clamp_of_mem {lo hi v : F64} (hlo : v.ge lo = true) (hhi : v.le hi = true) :
    clamp lo hi v = v := by
  have h : v.gt hi = false := not_lt_of_ge hhi
  simp [clamp, not_lt_of_ge hlo, h]

theorem key_one_pos : 0 < one.key := by decide +kernel
theorem key_real_neg_one : (real (-1)).key < 0 := by decide +kernel

end Sys2Proof.F64

namespace Sys2Proof.Machine

/-! ## Saturation -/

/-- Every saturated integer has a code, so no level wraps (R103). -/
theorem level_clampNibble (q : Int) : level (clampNibble q) = max (-8) (min 7 q) := by
  have hclamp : (if q < K.NIB_MIN then K.NIB_MIN else if q > K.NIB_MAX then K.NIB_MAX else q) =
      max (-8) (min 7 q) := by
    simp only [K]
    split_ifs <;> omega
  unfold level clampNibble
  rw [hclamp]
  exact BitVec.toInt_ofInt_eq_self (by decide) (by omega) (by omega)

/-! ## `toFloat` and `fromFloat` (R101, R102, R105) -/

/-- The divisor of `toFloat` is chosen by the sign of the level (R102). -/
theorem toFloat_eq (n : Nibble) :
    toFloat n = if level n = 0 then F64.zero
      else (F64.real (level n)).div (if level n < 0 then F64.real 8 else F64.real 7) := by
  unfold toFloat
  split_ifs <;> rfl

theorem fromFloat_of_lt_neg_one {x : F64} (h : x.isNaN = false)
    (hx : x.lt (F64.real (-1)) = true) : level (fromFloat x h) = -8 := by
  unfold fromFloat
  rw [F64.clamp_of_lt hx]
  decide +kernel

theorem fromFloat_of_neg {x : F64} (h : x.isNaN = false) (h0 : x.ge (F64.real (-1)) = true)
    (h1 : x.lt F64.zero = true) :
    level (fromFloat x h) = max (-8) (min 7 (x.mul (F64.real 8)).rnd) := by
  have hone : x.le F64.one = true := by
    have hlt := (F64.lt_iff.1 h1).2.2
    have := F64.key_one_pos
    rw [F64.key_zero] at hlt
    exact F64.le_iff.2 ⟨h, by simp, by omega⟩
  unfold fromFloat
  simp only [F64.clamp_of_mem h0 hone, h1, if_true, level_clampNibble]
  rfl

/-- A number from zero up is above -1, so only the upper bound can clamp it. -/
theorem ge_neg_one_of_ge_zero {x : F64} (hx : x.ge F64.zero = true) :
    x.ge (F64.real (-1)) = true := by
  obtain ⟨hn, _, hk⟩ := F64.ge_iff.1 hx
  have := F64.key_real_neg_one
  rw [F64.key_zero] at hk
  exact F64.ge_iff.2 ⟨hn, by simp, by omega⟩

theorem fromFloat_of_nonneg {x : F64} (h : x.isNaN = false) (h0 : x.ge F64.zero = true)
    (h1 : x.le F64.one = true) :
    level (fromFloat x h) = max (-8) (min 7 (x.mul (F64.real 7)).rnd) := by
  unfold fromFloat
  simp only [F64.clamp_of_mem (ge_neg_one_of_ge_zero h0) h1, F64.not_lt_of_ge h0,
    Bool.false_eq_true, if_false, level_clampNibble]
  rfl

theorem fromFloat_of_gt_one {x : F64} (h : x.isNaN = false) (hx : x.gt F64.one = true) :
    level (fromFloat x h) = 7 := by
  have h0 : x.ge F64.zero = true := by
    have hgt := (F64.gt_iff.1 hx).2.2
    have := F64.key_one_pos
    exact F64.ge_iff.2 ⟨h, by simp, by rw [F64.key_zero]; omega⟩
  unfold fromFloat
  rw [F64.clamp_of_gt (ge_neg_one_of_ge_zero h0) hx]
  decide +kernel

/-- R105, by evaluation at the sixteen codes. -/
theorem fromFloat_toFloat (n : Nibble) :
    fromFloat (toFloat n) (F64.isNaN_eq_false_of_isFinite (isFinite_toFloat n)) = n := by
  revert n
  decide +kernel

/-- Settles O47: `fromFloat` by the place of its operand among -1, 0 and 1. -/
theorem nibbleRoundTrip : Obligations.NibbleRoundTrip := by
  unfold Obligations.NibbleRoundTrip
  exact ⟨toFloat_eq,
    fun _ h => ⟨fromFloat_of_lt_neg_one h, fromFloat_of_neg h, fromFloat_of_nonneg h,
      fromFloat_of_gt_one h⟩,
    fun n => ⟨_, fromFloat_toFloat n⟩⟩

/-! ## Addition and scaling (R103, R104) -/

theorem isFinite_real_level (n : Nibble) : (F64.real (level n)).isFinite = true := by
  revert n
  decide +kernel

theorem nibScale_of_isFinite {n : Nibble} {g : F64}
    (h : ((F64.real (level n)).mul g).isFinite = true) :
    level (nibScale n g) = max (-8) (min 7 ((F64.real (level n)).mul g).rnd) := by
  simp only [nibScale, F64.isInf_eq_false_of_isFinite h, Bool.false_eq_true, if_false,
    level_clampNibble]

theorem nibScale_of_isInf {n : Nibble} {g : F64}
    (h : ((F64.real (level n)).mul g).isInf = true) :
    level (nibScale n g) = if ((F64.real (level n)).mul g).sign then -8 else 7 := by
  simp only [nibScale, h, if_true]
  split <;> rfl

/-- The gain 1.0 keeps every level, by evaluation at the sixteen codes (R104). -/
theorem nibScale_one_gain (n : Nibble) : nibScale n F64.one = n := by
  revert n
  decide +kernel

/-- Settles O48: a finite gain makes no NaN, so the product is finite or overflows to an infinity. -/
theorem nibbleArithmeticSaturates : Obligations.NibbleArithmeticSaturates := by
  unfold Obligations.NibbleArithmeticSaturates
  refine ⟨fun a b => level_clampNibble _, ?_, fun n => ⟨nibScale_one_gain n, nibScale_zero_gain n⟩⟩
  rintro n g p hg rfl
  have hnan := F64.isNaN_mul_of_isFinite (isFinite_real_level n) hg
  exact ⟨hnan, nibScale_of_isFinite, fun hf => nibScale_of_isInf (F64.isInf_of_not_isFinite hnan hf)⟩

end Sys2Proof.Machine
end

section
/-! PROOF. The Square Oscillator: the pulse, the phase advance and the pitch (41_square.md R111 to
R114). -/

namespace Sys2Proof.Machine

/-! ## The pulse and the phase advance (R111, R112, R114) -/

/-- The two levels of the pulse are the extreme levels of a Nibble. -/
theorem level_pulse (phase : F64) (d : SquareDuty) :
    level (pulse phase d) = if phase.lt K.DUTY[d.code.val] then -8 else 7 := by
  unfold pulse dutyRatio
  split <;> rfl

/-- On numbers, the two tests of R112 and R132 are the complement of the range. -/
theorem tests_eq_not_inRange {hi p : F64} (hp : p.isNaN = false) (hhi : hi.isNaN = false) :
    (p.ge hi || p.lt F64.zero) = !inRange F64.zero hi p := by
  simp [inRange, F64.ge_eq_not_lt hp hhi, F64.ge_eq_not_lt hp F64.isNaN_zero, Bool.or_comm]

theorem wrapUnit_of_not_isFinite {t : F64} (h : t.isFinite = false) : wrapUnit t = F64.zero := by
  simp [wrapUnit, h]

/-- The reduction of a finite sum keeps the remainder by the floor where that lies in [0, 1), and
clears the phase where rounding carried the remainder out of it. -/
theorem wrapUnit_of_isFinite {t : F64} (h : t.isFinite = true) :
    wrapUnit t = if inRange F64.zero F64.one (t.sub (F64.real t.floor))
      then t.sub (F64.real t.floor) else F64.zero := by
  have hp : (t.sub (F64.real t.floor)).isNaN = false := F64.isNaN_sub h (F64.isNaN_real _)
  simp only [wrapUnit, h, if_true, tests_eq_not_inRange hp F64.isNaN_one]
  cases inRange F64.zero F64.one (t.sub (F64.real t.floor)) <;> rfl

/-- Settles O32: the pulse by its comparator; the new phase is the reduction of the sum, which is
finite with the remainder in [0, 1), finite with the remainder outside it, or not finite. -/
theorem squareUnit : Obligations.SquareUnit := by
  unfold Obligations.SquareUnit
  refine ⟨fun phase d => ⟨fun h => by simp [level_pulse, h], fun h => by simp [level_pulse, h]⟩, ?_⟩
  rintro bend ratio sr sq t rfl
  exact ⟨rfl, inRange_wrapUnit _, wrapUnit_of_not_isFinite,
    fun hf hr => (wrapUnit_of_isFinite hf).trans (if_pos hr),
    fun hf hr => (wrapUnit_of_isFinite hf).trans (if_neg (by simp [hr]))⟩

/-! ## The pitch (R113) -/

/-- A whole number of octaves is an exact quotient of semitones, by evaluation at the 21 octaves that
a byte's notes span around the reference note. -/
theorem octaves_div_semis {k : Int} (h0 : -5 ≤ k) (h1 : k ≤ 15) :
    (F64.real (12 * k)).div K.SEMIS = F64.real k := by
  have hall : ∀ j : Fin 21, (F64.real (12 * ((j.val : Int) - 5))).div K.SEMIS =
      F64.real ((j.val : Int) - 5) := by decide +kernel
  have hk := hall ⟨(k + 5).toNat, by omega⟩
  rwa [show ((k + 5).toNat : Int) - 5 = k by omega] at hk

/-- Settles O33: the exponent of an octave note is the integer `k` exactly, where `P_EXP2_INT` gives
the power of two. -/
theorem pitchOctavesAreExact : Obligations.PitchOctavesAreExact := by
  unfold Obligations.PitchOctavesAreExact
  refine ⟨fun note => rfl, fun note k hk => ?_⟩
  have hnote : note.toNat < 256 := note.isLt
  have hsteps : (note.toNat : Int) - K.A4_NOTE = 12 * k := by
    have : K.A4_NOTE = 69 := rfl
    omega
  unfold pitch
  rw [hsteps, octaves_div_semis (by omega) (by omega), CFG.exp2_real (by omega) (by omega)]
  rfl

end Sys2Proof.Machine
end

section
/-! PROOF. The Noise Oscillator: its step (42_noise.md R121). -/

namespace Sys2Proof.F64

theorem isNaN_nan : nan.isNaN = true := by decide +kernel
theorem isInf_inf (b : Bool) : (inf b).isInf = true := by cases b <;> decide +kernel
theorem sign_inf (b : Bool) : (inf b).sign = b := by cases b <;> decide +kernel
theorem key_neg_inf : (inf true).key = -(2047 * 2 ^ 52) := by decide +kernel

/-- Every number is at or above -inf. -/
theorem ge_neg_inf {x : F64} (h : x.isNaN = false) : x.ge (inf true) = true := by
  have hm : x.mag ≤ 2047 * 2 ^ 52 := by simpa [isNaN] using h
  have := x.natAbs_key
  exact ge_iff.2 ⟨h, isNaN_inf true, by rw [key_neg_inf]; omega⟩

theorem ge_eq_false_of_isNaN (x : F64) {y : F64} (h : y.isNaN = true) : x.ge y = false := by
  simp [ge, le, h]

theorem isNaN_div_of_isNaN {x : F64} (y : F64) (h : x.isNaN = true) : (x.div y).isNaN = true := by
  simp [div, h, isNaN_nan]

/-- An infinity over a finite number is the infinity of the two signs. -/
theorem inf_div_of_isFinite (b : Bool) {y : F64} (h : y.isFinite = true) :
    (inf b).div y = inf (b != y.sign) := by
  simp [div, isInf_inf, sign_inf, isNaN_eq_false_of_isFinite h, isInf_eq_false_of_isFinite h]

end Sys2Proof.F64

namespace Sys2Proof.Machine

/-- Converting an infinite interval from milliseconds keeps it (R121). -/
theorem inf_div_msPerS (b : Bool) : (F64.inf b).div K.MS_PER_S = F64.inf b := by
  have hfin : K.MS_PER_S.isFinite = true := by decide +kernel
  have hpos : K.MS_PER_S.sign = false := by decide +kernel
  rw [F64.inf_div_of_isFinite b hfin, hpos, Bool.bne_false]

/-! ## When the counter reaches the interval (R121, notes/assumptions 26) -/

theorem intervalReached_iff {c q : F64} :
    intervalReached c q = true ↔ c.ge q = true ∧ (q.isInf = false ∨ q.sign = true) := by
  cases hi : q.isInf <;> simp [intervalReached, hi]

theorem intervalReached_of_not_ge {c q : F64} (h : c.ge q = false) :
    intervalReached c q = false := by
  simp [intervalReached, h]

theorem intervalReached_pos_inf (c : F64) : intervalReached c (F64.inf false) = false := by
  simp [intervalReached, F64.isInf_inf, F64.sign_inf]

theorem intervalReached_neg_inf {c : F64} (h : c.isNaN = false) :
    intervalReached c (F64.inf true) = true :=
  intervalReached_iff.2 ⟨F64.ge_neg_inf h, .inr (F64.sign_inf true)⟩

/-! ## The step (R121) -/

/-- The index wraps from 8191 to 0. -/
theorem val_nextNoiseIndex (i : Fin NOISE_LEN) :
    (nextNoiseIndex i).val = if i.val = 8191 then 0 else i.val + 1 := by
  have hi : i.val < 8192 := i.isLt
  have hmod : (nextNoiseIndex i).val = (i.val + 1) % 8192 := rfl
  rw [hmod]
  split <;> omega

section
variable {interval sr : F64} {no : Noise}

theorem noAdvance_of_reached
    (h : intervalReached (no.sec_counter.add (F64.one.div sr)) (interval.div K.MS_PER_S) = true) :
    noAdvance interval sr no =
      { sec_counter := F64.zero, index := nextNoiseIndex no.index } := by
  simp [noAdvance, h]

theorem noAdvance_of_not_reached
    (h : intervalReached (no.sec_counter.add (F64.one.div sr)) (interval.div K.MS_PER_S) = false) :
    noAdvance interval sr no = { no with sec_counter := no.sec_counter.add (F64.one.div sr) } := by
  simp [noAdvance, h]

end

/-- Settles O34: the step is decided by `intervalReached`, which a NaN and +inf never meet and -inf
meets with every number. -/
theorem noiseUnit : Obligations.NoiseUnit := by
  unfold Obligations.NoiseUnit
  rintro interval sr no c q i rfl rfl hi
  obtain rfl : i = nextNoiseIndex no.index := Fin.ext (hi.trans (val_nextNoiseIndex _).symm)
  refine ⟨fun hge hq => ?_, fun hge => ?_, fun hint => ?_, fun hint hc => ?_⟩
  · exact noAdvance_of_reached (intervalReached_iff.2 ⟨hge, hq⟩)
  · exact noAdvance_of_not_reached (intervalReached_of_not_ge hge)
  · refine noAdvance_of_not_reached ?_
    rcases hint with hnan | rfl
    · exact intervalReached_of_not_ge
        (F64.ge_eq_false_of_isNaN _ (F64.isNaN_div_of_isNaN _ hnan))
    · rw [inf_div_msPerS]
      exact intervalReached_pos_inf _
  · refine noAdvance_of_reached ?_
    rw [hint, inf_div_msPerS]
    exact intervalReached_neg_inf hc

end Sys2Proof.Machine
end

section
/-! PROOF. The Wavetable Oscillator and the table commands: the look-up and the phase advance
(43_wavetable.md R131, R132), the table's writers and its reader (R134 to R138). -/

namespace Sys2Proof

/-! ## The packed table (20_memory.md R60) -/

/-- Entry `i` of a packed table stands in bits [4i+3:4i]. -/
theorem extractLsb'_packTable (t : Vector Nibble WT_LEN) (i : Nat) (hi : i < WT_LEN) :
    (packTable t).extractLsb' (4 * i) 4 = t[i] := by
  have hentry : (unpackTable (packTable t))[i] = t[i] := by rw [unpackTable_packTable]
  rwa [unpackTable, Vector.getElem_ofFn] at hentry

end Sys2Proof

namespace Sys2Proof.F64

/-- What equals zero is a zero, of either sign. -/
theorem isZero_of_eq_zero {x : F64} (h : x.eq zero = true) : x.isZero = true := by
  obtain ⟨_, _, hkey⟩ := eq_iff.1 h
  rw [key_zero] at hkey
  have := x.natAbs_key
  simp only [isZero, beq_iff_eq]
  omega

end Sys2Proof.F64

namespace Sys2Proof.Machine

/-! ## The table commands (R134, R135, R137, R138)

The conjuncts that nothing else changes are the `simp` lemmas of `setTable`, `done` and `respond`. -/

/-- Settles O11: the command is one `tabWrite`, which outside the table writes nothing. -/
theorem setWtSampleWritesOneEntry : Obligations.SetWtSampleWritesOneEntry := by
  unfold Obligations.SetWtSampleWritesOneEntry
  intro idx value s
  have hrepeat := exec_repeatKeepsBlock (i := .setWtSample idx value) rfl s _ rfl
  refine ⟨done (s.setTable (tabWrite s.wt.table idx.toNat value)), rfl,
    tabWrite_getElem _ _ _, tabWrite_of_ge _, ?_⟩
  simpa [Answered] using hrepeat

/-- Settles O12: the operand becomes the table, and the reader's result is the table packed. -/
theorem wavetableSetAndGet : Obligations.WavetableSetAndGet := by
  unfold Obligations.WavetableSetAndGet
  constructor
  · intro tbl s
    have hrepeat := exec_repeatKeepsBlock (i := .setWavetable tbl) rfl s _ rfl
    refine ⟨done (s.setTable tbl), rfl, fun _ _ => rfl, ?_⟩
    simpa [Answered] using hrepeat
  · intro s
    refine ⟨respond (packTable s.wt.table) s, packTable s.wt.table, rfl, ?_⟩
    simpa [SameBlock, Answered] using extractLsb'_packTable s.wt.table

/-- Settles O14: the drawn table is stored, and the counter of draws moves on. -/
theorem resetRandomDrawsATable : Obligations.ResetRandomDrawsATable := by
  unfold Obligations.ResetRandomDrawsATable
  intro s
  refine ⟨done (s.setTable (Config.drawTable s.draws)).drawn, rfl, ?_⟩
  simp [Answered]

/-! ## The sine table (R136) -/

/-- A zero of either sign is quantized to level 0 (R101). -/
theorem level_fromFloat_of_isZero {x : F64} (hx : x.isZero = true) (h : x.isNaN = false) :
    level (fromFloat x h) = 0 := by
  unfold fromFloat
  rcases F64.eq_zero_or_negZero hx with rfl | rfl <;> decide +kernel

theorem sineTable_getElem (i : Nat) (hi : i < WT_LEN) :
    sineTable[i] =
      fromFloat (CFG.sin (sineAngle i)) (sin_not_nan (sineAngle_finite ⟨i, hi⟩)) :=
  Vector.getElem_ofFn hi

/-- The angle of entry 0 is a zero, where `P_TRIG_ZERO` gives the sine. -/
theorem level_sineTable_zero : level sineTable[0] = 0 := by
  have hangle : (sineAngle 0).isZero = true := by decide +kernel
  rw [sineTable_getElem]
  exact level_fromFloat_of_isZero (F64.isZero_of_eq_zero (CFG.sin_of_isZero hangle)) _

/-- Settles O13: the table stored is `sineTable`, entry by entry. -/
theorem resetSineFillsTheTable : Obligations.ResetSineFillsTheTable := by
  unfold Obligations.ResetSineFillsTheTable
  intro s
  refine ⟨done (s.setTable sineTable), rfl, fun i hi => ⟨_, sineTable_getElem i hi⟩,
    level_sineTable_zero, ?_⟩
  simp [Answered]

/-! ## The phase advance (R132) -/

/-- The remainder of `t` by the floored modulus 32, as R132 rounds it. -/
def tableRemainder (t : F64) : F64 := t.sub (wtLen.mul (F64.real (t.div wtLen).floor))

theorem wrapTable_of_not_isFinite {t : F64} (h : t.isFinite = false) : wrapTable t = F64.zero := by
  simp [wrapTable, h]

/-- The remainder of a finite sum is a number, for the multiple of 32 it subtracts is one. -/
theorem isNaN_tableRemainder {t : F64} (h : t.isFinite = true) :
    (tableRemainder t).isNaN = false :=
  F64.isNaN_sub h (F64.isNaN_mul isFinite_wtLen isZero_wtLen (F64.isNaN_real _))

/-- The reduction of a finite sum keeps the remainder where that lies in [0, 32), and clears the phase
where rounding carried the remainder out of it. -/
theorem wrapTable_of_isFinite {t : F64} (h : t.isFinite = true) :
    wrapTable t =
      if inRange F64.zero wtLen (tableRemainder t) then tableRemainder t else F64.zero := by
  have htests := tests_eq_not_inRange (isNaN_tableRemainder h)
    (F64.isNaN_eq_false_of_isFinite isFinite_wtLen)
  have hwrap : wrapTable t =
      if (tableRemainder t).ge wtLen || (tableRemainder t).lt F64.zero
        then F64.zero else tableRemainder t := if_pos h
  rw [hwrap, htests]
  cases inRange F64.zero wtLen (tableRemainder t) <;> rfl

/-- Settles O35: the look-up by the floor of a phase in [0, 32); the new phase is the reduction of the
sum, which is finite with the remainder in [0, 32), finite with the remainder outside it, or not
finite. -/
theorem wavetableLookupReadsTheEntry : Obligations.WavetableLookupReadsTheEntry := by
  unfold Obligations.WavetableLookupReadsTheEntry
  constructor
  · intro wt h
    obtain ⟨hge, hlt⟩ := inRange_iff.1 h
    obtain ⟨hfloor0, hfloor32⟩ := F64.floor_mem_of_inRange hge hlt
    exact ⟨hfloor0, by omega, wtLookup_of_inRange h⟩
  · rintro sr wt t p rfl rfl
    exact ⟨inRange_wrapTable _, rfl, wrapTable_of_not_isFinite,
      fun hf hr => (wrapTable_of_isFinite hf).trans (if_pos hr),
      fun hf hr => (wrapTable_of_isFinite hf).trans (if_neg (Bool.eq_false_iff.1 hr))⟩

end Sys2Proof.Machine
end

section
/-! PROOF. The Frequency Sweep: its guard, its modes and the clip latch (44_sweep.md R146 to
R152). -/

namespace Sys2Proof.Machine

/-! ## What the rest of a tick leaves unchanged -/

section
variable (sr : F64) (o : Nibble) (u : State)
@[simp] theorem finishTick_sw : (finishTick sr o u).sw = u.sw := rfl
@[simp] theorem finishTick_vo : (finishTick sr o u).vo = u.vo := rfl
end

/-! ## The guard and the choice of the mode (R146, R147, R151) -/

section
variable {par : Params} (sr : F64) (sw : Sweep)

/-- A zero of either sign is equal to zero, so the guard holds for it in every mode. -/
theorem swProcess_of_isZero (h : par.SweepAmount.isZero = true ∨ par.SweepPeriod.isZero = true) :
    swProcess par sr sw = (F64.zero, sw) := by
  have hguard : (par.SweepAmount.eq F64.zero || par.SweepPeriod.eq F64.zero) = true := by
    rcases h with h | h <;> simp [F64.eq_zero_of_isZero h]
  simp [swProcess, hguard]

theorem swProcess_of_none (h : par.SweepType = .none) : swProcess par sr sw = (F64.zero, sw) := by
  simp [swProcess, h]

theorem swProcess_of_upDown {up : Bool} (ha : par.SweepAmount.eq F64.zero = false)
    (hp : par.SweepPeriod.eq F64.zero = false) (h : par.SweepType = if up then .up else .down) :
    swProcess par sr sw = swUpDown up par sr sw := by
  cases up <;> simp [swProcess, ha, hp, h]

theorem swProcess_of_triangle (ha : par.SweepAmount.eq F64.zero = false)
    (hp : par.SweepPeriod.eq F64.zero = false) (h : par.SweepType = .triangle) :
    swProcess par sr sw =
      swTriangle (CFG.triDelta sw.shadow_freq par.SweepAmount par.SweepPeriod sr) par sr sw := by
  simp [swProcess, ha, hp, h]

end

/-- Settles O36, by the arm of mode None. -/
theorem sweepNoneOutputsZero : Obligations.SweepNoneOutputsZero := by
  unfold Obligations.SweepNoneOutputsZero
  exact fun _ sr sw h => swProcess_of_none sr sw h

/-- Settles O37: a clipped tick does not step the sweep, and an unclipped one stops at the guard. -/
theorem sweepGuard : Obligations.SweepGuard := by
  unfold Obligations.SweepGuard
  intro sr s t hzero h
  obtain ⟨_, o, u, rfl, _, _, _, _, _, hcase⟩ := process_cases h
  rw [finishTick_sw, finishTick_vo]
  rcases hcase with ⟨_, _, rfl⟩ | ⟨_, hsw, hfreq, _⟩
  · exact ⟨rfl, .inl rfl⟩
  · rw [swProcess_of_isZero sr s.sw hzero] at hsw hfreq
    exact ⟨hsw, .inr hfreq⟩

/-! ## The clip check (R152) -/

/-- The latch is set outside [10, 10000] and otherwise kept. -/
theorem clipCheck_eq (sw : Sweep) :
    clipCheck sw = { sw with
      clipped := sw.clipped || sw.shadow_freq.lt (F64.real 10) ||
        sw.shadow_freq.gt (F64.real 10000) } := by
  have hmin : K.F_MIN = F64.real 10 := rfl
  have hmax : K.F_MAX = F64.real 10000 := rfl
  unfold clipCheck
  rw [hmin, hmax, Bool.or_assoc]
  split
  · rename_i hout; rw [hout, Bool.or_true]
  · rename_i hin; rw [Bool.eq_false_iff.2 hin, Bool.or_false]

/-! ## Modes Up and Down (R148) -/

section
variable (up : Bool) {par : Params} {sr : F64} {sw : Sweep}

/-- Before the period is over only the timer moves. -/
theorem swUpDown_of_not_ge
    (h : (timerAdvanced sr sw).ge (sweepPeriodSeconds par.SweepPeriod) = false) :
    swUpDown up par sr sw = (F64.zero, { sw with timer := timerAdvanced sr sw }) := by
  simp [swUpDown, h]

/-- At the end of a period the delta is delivered, with its sign, and the shadow frequency moves by
it. -/
theorem swUpDown_of_ge
    (h : (timerAdvanced sr sw).ge (sweepPeriodSeconds par.SweepPeriod) = true) :
    swUpDown up par sr sw =
      (if up then sweepDelta sw.shadow_freq par.SweepAmount
        else (sweepDelta sw.shadow_freq par.SweepAmount).neg.nz,
      clipCheck { sw with
        timer := F64.zero
        shadow_freq := if up then (sw.shadow_freq.add (sweepDelta sw.shadow_freq par.SweepAmount)).nz
          else (sw.shadow_freq.sub (sweepDelta sw.shadow_freq par.SweepAmount)).nz }) := by
  cases up <;> simp [swUpDown, h]

end

/-- Settles O38: the tick waits or is a sweep tick, as the advanced timer compares with the period. -/
theorem sweepUpAndDown : Obligations.SweepUpAndDown := by
  unfold Obligations.SweepUpAndDown
  rintro up par sr sw _ _ _ _ ha hp hmode rfl rfl rfl rfl
  rw [swProcess_of_upDown sr sw ha hp hmode]
  refine ⟨fun hwait => swUpDown_of_not_ge up hwait, fun hdue => ?_⟩
  rw [swUpDown_of_ge up hdue, clipCheck_eq]
  rfl

/-! ## Mode Triangle (R149) -/

/-- The delta is negative in the second and the third quarter, and nowhere else. -/
theorem triangleDelta_eq {d period timer q : F64}
    (hq : q = ((sweepPeriodSeconds period).div (F64.real 4)).nz) :
    triangleDelta d period timer =
      if timer.lt q = false ∧ timer.lt (q.mul (F64.real 3)).nz = true then d.neg.nz else d := by
  unfold triangleDelta
  rw [← hq]
  by_cases hlt : timer.lt q = true <;> simp [hlt]

/-- Settles O39: the tick adds the signed delta of its quarter, and `nz` makes the delta finite. -/
theorem sweepTriangle : Obligations.SweepTriangle := by
  unfold Obligations.SweepTriangle
  rintro par sr sw _ q _ _ r _ ha hp hmode rfl hq rfl rfl hr rfl
  refine ⟨F64.isFinite_nz _, F64.nz_nz _, ?_⟩
  rw [swProcess_of_triangle sr sw ha hp hmode, swTriangle, triangleDelta_eq hq, ← hr,
    clipCheck_eq]
  rfl

/-! ## The clip latch (R152, R287) -/

/-- What a sweep tick does to the sweep: it moves at most the timer, or it writes a flushed shadow
frequency and checks it. -/
theorem swProcess_cases (par : Params) (sr : F64) (sw : Sweep) :
    ∃ timer, (swProcess par sr sw).2 = { sw with timer := timer } ∨
      ∃ f : F64, (swProcess par sr sw).2 =
        clipCheck { sw with timer := timer, shadow_freq := f.nz } := by
  have upDown (up : Bool) : ∃ timer, (swUpDown up par sr sw).2 = { sw with timer := timer } ∨
      ∃ f : F64, (swUpDown up par sr sw).2 =
        clipCheck { sw with timer := timer, shadow_freq := f.nz } := by
    cases hdue : (timerAdvanced sr sw).ge (sweepPeriodSeconds par.SweepPeriod) with
    | false => exact ⟨_, .inl (by rw [swUpDown_of_not_ge up hdue])⟩
    | true => cases up <;> exact ⟨_, .inr ⟨_, by rw [swUpDown_of_ge _ hdue]; rfl⟩⟩
  unfold swProcess
  split
  · exact ⟨_, .inl rfl⟩
  · split
    · exact ⟨_, .inl rfl⟩
    · exact upDown true
    · exact upDown false
    · exact ⟨_, .inr ⟨_, rfl⟩⟩

/-- A sweep tick sets the latch only where it leaves the shadow frequency outside [10, 10000]. -/
theorem swProcess_sets_clipped {par : Params} {sr : F64} {sw : Sweep} (hc : sw.clipped = false)
    (h : (swProcess par sr sw).2.clipped = true) :
    (swProcess par sr sw).2.shadow_freq.lt (F64.real 10) = true ∨
      (swProcess par sr sw).2.shadow_freq.gt (F64.real 10000) = true := by
  obtain ⟨timer, e | ⟨f, e⟩⟩ := swProcess_cases par sr sw <;> rw [e] at h ⊢
  · rw [hc] at h; cases h
  · simpa [clipCheck_eq, hc] using h

/-- A shadow frequency that a sweep tick writes is finite. -/
theorem swProcess_shadow_freq_finite {par : Params} {sr : F64} {sw : Sweep}
    (h : (swProcess par sr sw).2.shadow_freq ≠ sw.shadow_freq) :
    (swProcess par sr sw).2.shadow_freq.isFinite = true := by
  obtain ⟨timer, e | ⟨f, e⟩⟩ := swProcess_cases par sr sw <;> rw [e] at h ⊢
  · exact absurd rfl h
  · rw [clipCheck_eq]; exact F64.isFinite_nz f

/-- `PROCESS` steps the sweep while the latch is clear and leaves it alone while it is set (R154). -/
theorem process_sw {sr : F64} {s t : State} (h : exec (.process sr) s = .next t) :
    (s.sw.clipped = true ∧ t.sw = s.sw) ∨
      (s.sw.clipped = false ∧ t.sw = (swProcess s.par sr s.sw).2) := by
  obtain ⟨_, o, u, rfl, _, _, _, _, _, ⟨hc, _, rfl⟩ | ⟨hc, hsw, _⟩⟩ := process_cases h
  · exact .inl ⟨hc, rfl⟩
  · exact .inr ⟨hc, hsw⟩

/-- A command other than `PROCESS` leaves the sweep alone, or it is one of the two that reset it. -/
theorem exec_sw_of_ne_process {i : Instr} {s t : State} (hp : ∀ sr, i ≠ .process sr)
    (h : exec i s = .next t) :
    t.sw = s.sw ∨ t.sw.clipped = false ∧
      ((∃ note velocity, i = .noteOn note velocity) ∨ ∃ freq, i = .sweepReset freq) := by
  obtain ⟨_, _, _, _, hsw, _⟩ := exec_units h hp
  rcases hsw with e | ⟨note, velocity, hi, e⟩ | ⟨freq, hi, e⟩
  · exact .inl e
  · exact .inr ⟨by rw [e]; rfl, .inl ⟨note, velocity, hi⟩⟩
  · exact .inr ⟨by rw [e]; rfl, .inr ⟨freq, hi⟩⟩

/-- Settles O40: `PROCESS` steps the sweep only while the latch is clear, and any other command keeps
the latch or resets the sweep. -/
theorem clipLatch : Obligations.ClipLatch := by
  unfold Obligations.ClipLatch
  intro i s t h
  by_cases hp : ∃ sr, i = .process sr
  · obtain ⟨sr, rfl⟩ := hp
    rcases process_sw h with ⟨hc, e⟩ | ⟨hc, e⟩ <;> rw [e]
    · simp [hc]
    · exact ⟨by simp [hc], fun _ hset => ⟨⟨sr, rfl⟩, swProcess_sets_clipped hc hset⟩,
        fun _ hne => ⟨hc, swProcess_shadow_freq_finite hne⟩⟩
  · rcases exec_sw_of_ne_process (fun sr e => hp ⟨sr, e⟩) h with e | ⟨hclear, hi⟩
    · rw [e]; cases s.sw.clipped <;> simp [hp]
    · exact ⟨fun _ _ => hi, by simp [hclear], fun hproc => absurd hproc hp⟩

end Sys2Proof.Machine
end

section
/-! PROOF. The Envelope Generator and its Stutter: the transitions of a tick and their causes, the
curves, the gain and the assignability predicate (45_envelope.md R160 to R176). -/

namespace Sys2Proof.Machine

/-! ## Assignability (R176) -/

/-- The answer has the predicate in bit 0 and no other bit set. -/
theorem flag_in_bit0 (b : Bool) : (0#127) ++ flagBit b = if b then (1 : Data) else 0 := by
  cases b <;> decide

theorem assignable_of_noteOn {par : Params} (note : Byte) (e : Envelope)
    (h : par.StutterWhen = .noteOn) :
    assignable note par e = true ↔ (e.note_valid = true ∧ note = e.note) ∨ e.note_on = false := by
  simp [assignable, h]

theorem assignable_of_noteOff {par : Params} (note : Byte) (e : Envelope)
    (h : par.StutterWhen = .noteOff) :
    assignable note par e = true ↔ (e.note_valid = true ∧ note = e.note) ∨
      (e.state = .release ∨ e.state = .off) ∨ e.stuttering = true := by
  simp [assignable, h, or_assoc]

/-- Settles O25: the answer is 1 where the predicate holds and 0 where it does not, and the predicate
is R176's under each setting. -/
theorem queryAssignable : Obligations.QueryAssignable := by
  unfold Obligations.QueryAssignable
  intro note s
  have hone : (if assignable note s.par s.env then (1 : Data) else 0) = 1 ↔
      assignable note s.par s.env = true := by simp
  refine ⟨_, _, rfl, ⟨rfl, rfl, rfl, rfl, rfl, rfl, rfl, rfl⟩, rfl, rfl, ?_⟩
  rw [flag_in_bit0]
  refine ⟨?_, fun h => hone.trans (assignable_of_noteOn note s.env h),
    fun h => hone.trans (assignable_of_noteOff note s.env h)⟩
  split <;> simp

/-! ## The states and the note events (R163 to R165) -/

theorem isSounding_iff {st : EnvState} :
    st.isSounding = true ↔ st = .attack ∨ st = .decay ∨ st = .sustain := by
  cases st <;> simp [EnvState.isSounding]

theorem armAt_state (ev : StutterWhen) (par : Params) (e : Envelope) :
    (armAt ev par e).state = e.state := by rw [armAt_spec]

theorem envNoteOn_state (note : Byte) (velocity : F64) (par : Params) (e : Envelope) :
    (envNoteOn note velocity par e).state = .attack := armAt_state _ _ _

/-- `env.note_off()` moves a sounding envelope to Release and no other (R165). -/
theorem envNoteOff_state (par : Params) (e : Envelope) :
    (envNoteOff par e).state = if e.state.isSounding then .release else e.state := by
  rw [envNoteOff, armAt_state, envRelease]
  split <;> rfl

/-- A note event arms only where `StutterWhen` names it and the depth is a number but zero (R172). -/
theorem armed_of_armAt {ev : StutterWhen} {par : Params} {e : Envelope}
    (h : (armAt ev par e).stuttering = true) :
    par.StutterWhen = ev ∧ par.StutterDepth.isZero = false ∧ par.StutterDepth.isNaN = false := by
  rw [armAt_spec] at h
  by_cases hev : par.StutterWhen = ev <;> simp_all

/-! ## The timed transitions (R166) -/

section
variable (par : Params) (sr : F64) (e : Envelope)

/-- Everything `env.fsm_step` can do: the three transitions, each with its cause and what it writes,
or nothing (R166). -/
theorem fsmStep_cases :
    (e.state = .attack ∧ (secondsOf e.elapsed sr).gt par.EgAttack = true ∧
      fsmStep par sr e =
        (F64.zero, { e with last_state_value := F64.one, state := .decay, elapsed := 0 })) ∨
    (e.state = .decay ∧ (secondsOf e.elapsed sr).gt par.EgDecay = true ∧
      fsmStep par sr e =
        (F64.zero, { e with last_state_value := e.value, state := .sustain, elapsed := 0 })) ∨
    (e.state = .release ∧ (secondsOf e.elapsed sr).gt par.EgRelease = true ∧
      fsmStep par sr e = (F64.zero, { e with state := .off, elapsed := 0 })) ∨
    ((e.state = .attack → (secondsOf e.elapsed sr).gt par.EgAttack = false) ∧
      (e.state = .decay → (secondsOf e.elapsed sr).gt par.EgDecay = false) ∧
      (e.state = .release → (secondsOf e.elapsed sr).gt par.EgRelease = false) ∧
      fsmStep par sr e = (secondsOf e.elapsed sr, e)) := by
  cases hs : e.state with
  | attack => cases hgt : (secondsOf e.elapsed sr).gt par.EgAttack <;> simp [fsmStep, hs, hgt]
  | decay =>
    cases hgt : (secondsOf e.elapsed sr).gt par.EgDecay <;>
      simp [fsmStep, hs, hgt, envLeave_spec, EnvState.isSounding]
  | release => cases hgt : (secondsOf e.elapsed sr).gt par.EgRelease <;> simp [fsmStep, hs, hgt]
  | sustain => simp [fsmStep, hs]
  | off => simp [fsmStep, hs]

/-- The seconds the curve uses are those of the counter the transition leaves (R166). -/
theorem fsmStep_seconds : (fsmStep par sr e).1 = secondsOf (fsmStep par sr e).2.elapsed sr := by
  obtain ⟨_, _, h⟩ | ⟨_, _, h⟩ | ⟨_, _, h⟩ | ⟨_, _, _, h⟩ := fsmStep_cases par sr e <;> simp [h]

theorem envAdvance_stuttering_eq :
    (envAdvance par sr e).stuttering = (stutterStep par sr e).stuttering :=
  (fsmStep_stutter par sr _).1

end

/-- A tick from what its transition leaves: the curve is evaluated and the counter advances (R174). -/
theorem envAdvance_of_fsmStep {par : Params} {sr sec : F64} {e u : Envelope}
    (h : fsmStep par sr (stutterStep par sr e) = (sec, u)) :
    envAdvance par sr e = { u with value := curve par sec u, elapsed := u.elapsed + 1 } := by
  simp [envAdvance, h]

/-- Settles O41: with no stutter tick due the stutter step counts at most, and the transition is the
one of `env.fsm_step`. -/
theorem envelopeTimedTransitions : Obligations.EnvelopeTimedTransitions := by
  unfold Obligations.EnvelopeTimedTransitions
  rintro par sr e _ _ hdue rfl rfl
  have hcases := fsmStep_cases par sr (stutterStep par sr e)
  have hst := stutterStep_of_not_due par sr hdue
  obtain ⟨hs, hgt, h⟩ | ⟨hs, hgt, h⟩ | ⟨hs, hgt, h⟩ | ⟨hattack, hdecay, hrelease, h⟩ := hcases <;>
    rw [envAdvance_of_fsmStep h] <;> simp only [hst, secondsOf] at *
  · simp [hs, hgt]
  · simp [hs, hgt]
  · simp [hs, hgt]
  · simp +contextual [hattack, hdecay, hrelease]

/-! ## The curves and the gain (R167 to R171, R174, R175) -/

/-- Settles O42: the curve uses the seconds of the counter before it advances, and the rest is the
definition of the curves, of the quantizer and of the gain. -/
theorem envelopeCurvesAndGain : Obligations.EnvelopeCurvesAndGain := by
  unfold Obligations.EnvelopeCurvesAndGain
  rintro par sr e _ _ rfl rfl
  refine ⟨Nat.succ_pos _, ?_, rfl, isFinite_envGain _⟩
  have hvalue : (envAdvance par sr e).value =
      curve par (fsmStep par sr (stutterStep par sr e)).1 (envAdvance par sr e) := rfl
  rw [fsmStep_seconds] at hvalue
  exact hvalue

/-- A value of zero gives the gain zero, whatever the velocities (R174, R175). -/
theorem envGain_of_value_zero {e : Envelope} (h : e.value = F64.zero) : envGain e = F64.zero := by
  have hquantized : discreteLoudness F64.zero = F64.zero := by decide +kernel
  rw [envGain, h, hquantized, F64.nz_of_zero_mul, F64.nz_of_zero_mul]

/-! ## A tick on which a stutter tick is due (R173) -/

section
variable {par : Params} {sr : F64} {e : Envelope}

/-- The forced Off: no transition follows it, and the curve of Off is zero. -/
theorem envAdvance_forcedOff (hdue : stutterDue par sr e = true)
    (hfloor : (stutterStepped e.stutter_velocity par.StutterDepth).lt K.STUTTER_FLOOR = true) :
    envAdvance par sr e =
      { e with
        state := .off, elapsed := 1, value := F64.zero, stuttering := false, st_count := 0
        stutter_velocity := stutterStepped e.stutter_velocity par.StutterDepth } := by
  have h := stutterStep_of_due par sr hdue
  rw [if_pos hfloor] at h
  simp [envAdvance, h, fsmStep, curve]

/-- The retrigger: at zero seconds Attack stays unless its time is negative, and its value is zero. -/
theorem envAdvance_retrigger (hdue : stutterDue par sr e = true)
    (hfloor : (stutterStepped e.stutter_velocity par.StutterDepth).lt K.STUTTER_FLOOR = false)
    (htime : F64.zero.gt par.EgAttack = false) :
    envAdvance par sr e =
      { e with
        state := .attack, elapsed := 1, value := F64.zero, st_count := 0
        stutter_velocity := stutterStepped e.stutter_velocity par.StutterDepth
        last_state_value := if e.state.isSounding then e.value else e.last_state_value } := by
  have h := stutterStep_of_due par sr hdue
  rw [hfloor, if_neg Bool.false_ne_true] at h
  simp [envAdvance, h, fsmStep, curve, htime, F64.nz_of_zero_div]

/-- At zero seconds Decay stands at its anchor 1.0, for every sustain level and decay time (R168). -/
theorem decay_starts_at_one (sustain decay : F64) :
    (F64.one.sub ((F64.one.sub sustain).nz.mul (F64.zero.div decay).nz).nz).nz = F64.one := by
  rw [F64.nz_of_zero_div, F64.nz_of_mul_zero]
  decide +kernel

/-- The retrigger with a negative attack time, which zero seconds exceed: Attack is left for Decay
(60_exceptions.md R255). -/
theorem envAdvance_retrigger_decay (hdue : stutterDue par sr e = true)
    (hfloor : (stutterStepped e.stutter_velocity par.StutterDepth).lt K.STUTTER_FLOOR = false)
    (htime : F64.zero.gt par.EgAttack = true) :
    envAdvance par sr e =
      { e with
        state := .decay, elapsed := 1, value := F64.one, st_count := 0
        stutter_velocity := stutterStepped e.stutter_velocity par.StutterDepth
        last_state_value := F64.one } := by
  have h := stutterStep_of_due par sr hdue
  rw [hfloor, if_neg Bool.false_ne_true] at h
  simp [envAdvance, h, fsmStep, curve, htime, decay_starts_at_one]

end

/-- For an armed stutter, a stutter tick is due exactly when the seconds of the next count exceed the
time (R173). -/
theorem stutterDue_of_stuttering {par : Params} {e : Envelope} (sr : F64)
    (h : e.stuttering = true) :
    stutterDue par sr e = (secondsOf (e.st_count + 1) sr).gt par.StutterTime := by
  simp [stutterDue, h, secondsOf]

/-- Settles O43: a count, a forced Off or a retrigger, by whether the stutter tick is due and where the
stepped velocity stands. (The plain name is the model's function.) -/
theorem Envelope.stutterTick : Obligations.StutterTick := by
  unfold Obligations.StutterTick
  rintro par sr e _ _ _ harmed rfl rfl rfl
  have hnote := envAdvance_noteRegisters par sr e
  simp only [noteRegisters, Prod.mk.injEq] at hnote
  have hdue := stutterDue_of_stuttering (par := par) sr harmed
  refine ⟨fun hsec => ?_, fun hsec hfloor => ?_, fun hsec hfloor => ?_, hnote⟩
  · have hcount := stutterStep_of_not_due par sr (hdue.trans hsec)
    obtain ⟨hs, hc, hv⟩ := fsmStep_stutter par sr (stutterStep par sr e)
    refine ⟨hs.trans ?_, hc.trans ?_, hv.trans ?_⟩ <;> simp [hcount, harmed]
  · have h := envAdvance_forcedOff (hdue.trans hsec) hfloor
    simp [envProcess, envGain_of_value_zero, h, stutterStepped]
  · cases htime : F64.zero.gt par.EgAttack with
    | false =>
      have h := envAdvance_retrigger (hdue.trans hsec) hfloor htime
      simp [envProcess, envGain_of_value_zero, h, harmed, stutterStepped, isSounding_iff]
    | true =>
      have h := envAdvance_retrigger_decay (hdue.trans hsec) hfloor htime
      simp [envProcess, h, harmed, stutterStepped]

/-! ## What the commands do to the envelope -/

/-- A sample tick steps the envelope and scales the sample by its gain (47_voice.md R210). -/
theorem process_env_dac {sr : F64} {s t : State} (h : exec (.process sr) s = .next t) :
    t.env = envAdvance s.par sr s.env ∧
      ∃ o, t.dac = (dacProcess s.par sr (nibScale o (envGain t.env)) s.dac).2 := by
  obtain ⟨_, o, u, rfl, hpar, henv, hdac, _⟩ := process_cases h
  rw [← hpar, ← henv, ← hdac]
  exact ⟨rfl, o, rfl⟩

/-- A command other than `PROCESS` leaves the envelope alone, or it is a note event. -/
theorem exec_env_of_ne_process {i : Instr} {s t : State} (hp : ∀ sr, i ≠ .process sr)
    (h : exec i s = .next t) :
    t.env = s.env ∨
      (∃ note velocity, i = .noteOn note velocity ∧ t.env = envNoteOn note velocity s.par s.env) ∨
      ∃ note, i = .noteOff note ∧ t.env = envNoteOff s.par s.env := by
  obtain ⟨_, _, _, _, _, henv, _⟩ := exec_units h hp
  exact henv

/-- An envelope in Off that is not stuttering only counts, at the value zero (R171). -/
theorem envAdvance_off (par : Params) (sr : F64) {e : Envelope} (hoff : e.state = .off)
    (hst : e.stuttering = false) :
    envAdvance par sr e = { e with value := F64.zero, elapsed := e.elapsed + 1 } := by
  have h : fsmStep par sr (stutterStep par sr e) = (secondsOf e.elapsed sr, e) := by
    rw [stutterStep_of_not_stuttering par sr hst, fsmStep, hoff]
  rw [envAdvance_of_fsmStep h, curve, hoff]

/-- Settles O44: the tick leaves Off with the value zero, so the gain is zero and scales every sample
to silence. -/
theorem offVoiceIsSilent : Obligations.OffVoiceIsSilent := by
  unfold Obligations.OffVoiceIsSilent
  intro sr s t hoff hst h
  obtain ⟨henv, o, hdac⟩ := process_env_dac h
  rw [envAdvance_off s.par sr hoff hst] at henv
  have hvalue : t.env.value = F64.zero := by rw [henv]
  rw [envGain_of_value_zero hvalue, nibScale_zero_gain] at hdac
  exact ⟨by rw [henv]; exact hoff, hvalue, hdac⟩

/-- With no stutter tick due, a tick that moves the state makes a timed transition (R161, R166). -/
theorem timed_transition {par : Params} {sr : F64} {e : Envelope}
    (hdue : stutterDue par sr e = false) (hne : (envAdvance par sr e).state ≠ e.state) :
    (e.state = .attack ∧ (envAdvance par sr e).state = .decay ∧
      (secondsOf e.elapsed sr).gt par.EgAttack = true) ∨
    (e.state = .decay ∧ (envAdvance par sr e).state = .sustain ∧
      (secondsOf e.elapsed sr).gt par.EgDecay = true) ∨
    (e.state = .release ∧ (envAdvance par sr e).state = .off ∧
      (secondsOf e.elapsed sr).gt par.EgRelease = true) := by
  have hcases := fsmStep_cases par sr (stutterStep par sr e)
  rw [stutterStep_of_not_due par sr hdue] at hcases
  rw [envAdvance, stutterStep_of_not_due par sr hdue] at hne ⊢
  obtain ⟨hs, hgt, h⟩ | ⟨hs, hgt, h⟩ | ⟨hs, hgt, h⟩ | ⟨_, _, _, h⟩ := hcases <;> rw [h] at hne ⊢
  · exact .inl ⟨hs, rfl, hgt⟩
  · exact .inr (.inl ⟨hs, rfl, hgt⟩)
  · exact .inr (.inr ⟨hs, rfl, hgt⟩)
  · exact absurd rfl hne

/-- Settles O45: a tick with no stutter tick due can only make a timed transition, a due one ends in
one of its three ways, and of the other commands only the note events move the state. -/
theorem envelopeStateWriters : Obligations.EnvelopeStateWriters := by
  unfold Obligations.EnvelopeStateWriters
  intro i s t h hne
  by_cases hp : ∃ sr, i = .process sr
  · obtain ⟨sr, rfl⟩ := hp
    refine .inr (.inr ⟨sr, _, _, rfl, rfl, rfl, ?_⟩)
    rw [(process_env_dac h).1] at hne ⊢
    cases hdue : stutterDue s.par sr s.env with
    | false => exact .inl ⟨rfl, timed_transition hdue hne⟩
    | true =>
      refine .inr ⟨rfl, ?_⟩
      cases hfloor : (stutterStepped s.env.stutter_velocity s.par.StutterDepth).lt
          K.STUTTER_FLOOR with
      | true => exact .inl ⟨hfloor, by rw [envAdvance_forcedOff hdue hfloor]⟩
      | false =>
        refine .inr ⟨hfloor, ?_⟩
        cases htime : F64.zero.gt s.par.EgAttack with
        | false => exact .inl ⟨rfl, by rw [envAdvance_retrigger hdue hfloor htime]⟩
        | true => exact .inr ⟨rfl, by rw [envAdvance_retrigger_decay hdue hfloor htime]⟩
  · rcases exec_env_of_ne_process (fun sr e => hp ⟨sr, e⟩) h with e | ⟨n, v, hi, e⟩ | ⟨n, hi, e⟩ <;>
      rw [e] at hne ⊢
    · exact absurd rfl hne
    · exact .inl ⟨⟨n, v, hi⟩, envNoteOn_state _ _ _ _⟩
    · rw [envNoteOff_state] at hne ⊢
      by_cases hs : s.env.state.isSounding = true
      · exact .inr (.inl ⟨⟨n, hi⟩, if_pos hs, isSounding_iff.1 hs⟩)
      · exact absurd (if_neg hs) hne

/-- A tick that disarms the stutter forces Off: a retrigger and a count keep it armed (R173). -/
theorem off_of_disarmed {par : Params} {sr : F64} {e : Envelope} (harmed : e.stuttering = true)
    (h : (envAdvance par sr e).stuttering = false) : (envAdvance par sr e).state = .off := by
  cases hdue : stutterDue par sr e with
  | false =>
    rw [envAdvance_stuttering_eq, stutterStep_of_not_due par sr hdue] at h
    exact absurd (harmed.symm.trans h) Bool.false_ne_true.symm
  | true =>
    cases hfloor : (stutterStepped e.stutter_velocity par.StutterDepth).lt K.STUTTER_FLOOR with
    | true => rw [envAdvance_forcedOff hdue hfloor]
    | false =>
      rw [envAdvance_stuttering_eq, stutterStep_of_due par sr hdue, hfloor] at h
      exact absurd (harmed.symm.trans h) Bool.false_ne_true.symm

/-- Settles O46: a tick never arms and disarms only by a forced Off, and a note event arms or disarms
by `armAt`. -/
theorem stutterIsArmedOnlyByNoteEvents : Obligations.StutterIsArmedOnlyByNoteEvents := by
  unfold Obligations.StutterIsArmedOnlyByNoteEvents
  intro i s t h
  by_cases hp : ∃ sr, i = .process sr
  · obtain ⟨sr, rfl⟩ := hp
    rw [(process_env_dac h).1]
    refine ⟨fun hs ht => ?_, fun hs ht => .inr (.inr ⟨⟨sr, rfl⟩, off_of_disarmed hs ht⟩)⟩
    simp [envAdvance_stuttering s.par sr ht] at hs
  · rcases exec_env_of_ne_process (fun sr e => hp ⟨sr, e⟩) h with e | ⟨n, v, hi, e⟩ | ⟨n, hi, e⟩ <;>
      rw [e]
    · exact ⟨fun hs ht => absurd (hs.symm.trans ht) Bool.false_ne_true,
        fun hs ht => absurd (ht.symm.trans hs) Bool.false_ne_true⟩
    · refine ⟨fun _ ht => ?_, fun _ _ => .inl ⟨n, v, hi⟩⟩
      obtain ⟨hwhen, hzero, hnan⟩ := armed_of_armAt ht
      exact ⟨hzero, hnan, .inl ⟨⟨n, v, hi⟩, hwhen⟩⟩
    · refine ⟨fun _ ht => ?_, fun _ _ => .inr (.inl ⟨n, hi⟩)⟩
      obtain ⟨hwhen, hzero, hnan⟩ := armed_of_armAt ht
      exact ⟨hzero, hnan, .inr ⟨⟨n, hi⟩, hwhen⟩⟩

end Sys2Proof.Machine
end

section
/-! PROOF. The DAC (46_dac.md): the coefficient formulas (R192), the difference equation (R193), the
caching of the coefficients (R191, R195), and the two invariants (R193, 10_state.md R31). -/

namespace Sys2Proof.F64

/-- A zero of either sign is flushed to `+0.0`. -/
theorem nz_of_isZero {x : F64} (h : x.isZero = true) : x.nz = zero := by
  rcases eq_zero_or_negZero h with rfl | rfl <;> decide +kernel

/-- Anything times a zero of either sign is flushed to zero: a zero or a NaN. -/
theorem nz_of_mul_isZero (x : F64) {y : F64} (h : y.isZero = true) : (x.mul y).nz = zero := by
  have hmant : y.mant = 0 := by rcases eq_zero_or_negZero h with rfl | rfl <;> decide +kernel
  have hsz : ∀ b, (signedZero b).nz = zero := by decide +kernel
  have hnan : nan.nz = zero := by decide +kernel
  unfold mul
  rw [h, Bool.or_true, if_pos rfl]
  split
  · exact hnan
  split
  · exact hnan
  · rw [hmant, Nat.mul_zero, round, if_pos rfl]
    exact hsz _

end Sys2Proof.F64

namespace Sys2Proof.Machine

/-! ## The filter's history, apart from its coefficients -/

/-- The four history registers of the DAC (46_dac.md R190). -/
def dacHistory (d : Dac) : List F64 := [d.x1, d.x2, d.y1, d.y2]

theorem dacHistory_eq_iff {c d : Dac} :
    dacHistory c = dacHistory d ↔ c.x1 = d.x1 ∧ c.x2 = d.x2 ∧ c.y1 = d.y1 ∧ c.y2 = d.y2 := by
  simp [dacHistory]

theorem dacFinite_iff {d : Dac} :
    DacFinite d = true ↔
      (∀ x ∈ dacCoefficients d, x.isFinite = true) ∧ ∀ x ∈ dacHistory d, x.isFinite = true := by
  simp [DacFinite, dacCoefficients, dacHistory, and_assoc]

/-- The first step of `dac.process` keeps the history, whether it recomputes or not (R192, R194). -/
theorem dacRefresh_dacHistory (par : Params) (sr : F64) (d : Dac) :
    dacHistory (dacRefresh par sr d) = dacHistory d := by
  unfold dacRefresh
  split
  · exact dacHistory_eq_iff.2 (dacRecompute_spec par sr d).2
  · rfl

/-- `dac.process` writes the history and, of the rest, only what its first step writes (R193, R194). -/
theorem dacProcess_snd (par : Params) (sr : F64) (n : Nibble) (d : Dac) :
    (dacProcess par sr n d).2 =
      { dacRefresh par sr d with
        x1 := toFloat n, x2 := d.x1, y2 := d.y1
        y1 := dacOutput (toFloat n) (dacRefresh par sr d) } := by
  obtain ⟨hx1, _, hy1, _⟩ := dacHistory_eq_iff.1 (dacRefresh_dacHistory par sr d)
  rw [← hx1, ← hy1]
  rfl

theorem dacProcess_dacCoefficients (par : Params) (sr : F64) (n : Nibble) (d : Dac) :
    dacCoefficients (dacProcess par sr n d).2 = dacCoefficients (dacRefresh par sr d) := rfl

/-- A tick runs `dac.process` on some Nibble and answers with the DAC's output (47_voice.md R210). -/
theorem process_dac_answer {sr : F64} {s t : State} (h : exec (.process sr) s = .next t) :
    ∃ n, t.dac = (dacProcess s.par sr n s.dac).2 ∧
      t.port.response = some (responseWord .ok ((0#64) ++ t.dac.y1.bits)) := by
  obtain ⟨_, o, u, rfl, hpar, _, hdac, _⟩ := process_cases h
  rw [← hpar, ← hdac]
  exact ⟨_, rfl, rfl⟩

/-- A command other than `PROCESS` leaves the DAC alone, or it writes a DAC parameter and marks the
coefficients stale (R191). -/
theorem exec_dac_of_ne_process {i : Instr} {s t : State} (hp : ∀ sr, i ≠ .process sr)
    (h : exec i s = .next t) :
    t.dac = s.dac ∨
      ((∃ v, i = .setParamDacFreq v ∨ i = .setParamDacQ v) ∧ t.dac = markDirty s.dac) := by
  obtain ⟨_, _, _, _, _, _, hdac, _⟩ := exec_units h hp
  exact hdac

/-! ## The tick -/

/-- Settles O49: the tick is `dac.process`, whose first step keeps the history the equation reads. -/
theorem dacTick : Obligations.DacTick := by
  unfold Obligations.DacTick
  intro sr s t h
  obtain ⟨n, hdac, hanswer⟩ := process_dac_answer h
  obtain ⟨hx1, hx2, hy1, hy2⟩ := dacHistory_eq_iff.1 (dacRefresh_dacHistory s.par sr s.dac)
  refine ⟨n, ?_, ?_, ?_, ?_, ?_, hanswer⟩ <;> rw [hdac, dacProcess_snd]
  · rw [← hx1, ← hx2, ← hy1, ← hy2]
    rfl
  · exact isFinite_dacOutput _ _

/-! ## The coefficients -/

/-- At `DacFreq` = 0 of either sign the angle is zero at every sample rate (R192). -/
theorem dacAngle_of_isZero {freq : F64} (sr : F64) (h : freq.isZero = true) :
    dacAngle freq sr = F64.zero := by
  rw [dacAngle, F64.nz_of_mul_isZero _ h, F64.nz_of_zero_div]

/-- At the angle zero the sine vanishes (`P_TRIG_ZERO`), and the coefficients do not depend on Q. -/
theorem dacRecompute_of_angle_zero {par : Params} {sr : F64} (d : Dac)
    (h : dacAngle par.DacFreq sr = F64.zero) :
    dacRecompute par sr d =
      { d with
        b0n := F64.zero, b1n := F64.zero, b2n := F64.zero
        a1n := F64.real (-2), a2n := F64.one, dirty := false } := by
  have hcos : (CFG.cos F64.zero).nz = F64.one := by
    rw [CFG.cos_of_isZero F64.isZero_zero]; decide +kernel
  have hsin : (CFG.sin F64.zero).nz = F64.zero :=
    F64.nz_of_isZero (F64.isZero_of_eq_zero (CFG.sin_of_isZero F64.isZero_zero))
  have hb1 : (F64.one.sub F64.one).nz = F64.zero := by decide +kernel
  have ha0 : (F64.one.add F64.zero).nz = F64.one := by decide +kernel
  have ha1 : (((F64.real (-2)).mul F64.one).nz.div F64.one).nz = F64.real (-2) := by decide +kernel
  have ha2 : ((F64.one.sub F64.zero).nz.div F64.one).nz = F64.one := by decide +kernel
  simp only [dacRecompute, h, hcos, hsin, hb1, ha0, ha1, ha2, F64.nz_of_zero_div]

/-- Settles O50: the formulas are those of `dacRecompute`, and at `DacFreq` = 0 its angle is zero. -/
theorem Dac.dacCoefficients : Obligations.DacCoefficients := by
  unfold Obligations.DacCoefficients
  constructor
  · rintro par sr d w cw sn a a0 b1 rfl rfl rfl rfl rfl rfl
    rfl
  · intro par sr d _ hfreq
    exact dacRecompute_of_angle_zero d (dacAngle_of_isZero sr hfreq)

/-! ## The caching -/

/-- Settles O51: a tick refreshes, which recomputes exactly where the flag is set, and clears the flag;
every other command leaves the DAC alone or sets the flag. -/
theorem dacCaching : Obligations.DacCaching := by
  unfold Obligations.DacCaching
  intro i s t h
  by_cases hp : ∃ sr, i = .process sr
  · obtain ⟨sr, rfl⟩ := hp
    obtain ⟨n, hdac, _⟩ := process_dac_answer h
    have hclean : t.dac.dirty = false := by
      rw [hdac]; exact dacRefresh_clean s.par sr s.dac
    have hcoeff : dacCoefficients t.dac = dacCoefficients (dacRefresh s.par sr s.dac) := by
      rw [hdac, dacProcess_dacCoefficients]
    refine ⟨fun _ => hclean, fun sr' hsr hdirty => ?_, fun hs => ?_, fun hne => absurd rfl (hne sr),
      fun _ ht => absurd (hclean.symm.trans ht) Bool.false_ne_true, fun _ _ => ⟨sr, rfl⟩⟩
    · cases hsr
      rw [hcoeff, dacRefresh, if_pos hdirty]
    · rw [hcoeff, dacRefresh_of_clean _ _ hs]
  · have hp : ∀ sr, i ≠ .process sr := fun sr e => hp ⟨sr, e⟩
    refine ⟨fun ⟨sr, e⟩ => absurd e (hp sr), fun sr e => absurd e (hp sr), ?_⟩
    rcases exec_dac_of_ne_process hp h with e | ⟨hi, e⟩ <;> rw [e]
    · exact ⟨fun _ => rfl, fun _ => rfl,
        fun hs ht => absurd (hs.symm.trans ht) Bool.false_ne_true,
        fun hs ht => absurd (ht.symm.trans hs) Bool.false_ne_true⟩
    · exact ⟨fun _ => rfl, fun _ => rfl, fun _ _ => hi, fun _ ht => nomatch ht⟩

/-! ## The invariants -/

/-- Whatever the parameters and the sample rate are, a recomputed coefficient is finite: it is flushed
(R192). -/
theorem isFinite_of_mem_dacRecompute_coefficients (par : Params) (sr : F64) (d : Dac) :
    ∀ x ∈ dacCoefficients (dacRecompute par sr d), x.isFinite = true := by
  simp [dacCoefficients, dacRecompute]

theorem dacRefresh_keeps_dacFinite (par : Params) (sr : F64) {d : Dac} (h : DacFinite d = true) :
    DacFinite (dacRefresh par sr d) = true := by
  refine dacFinite_iff.2 ⟨?_, ?_⟩
  · unfold dacRefresh
    split
    · exact isFinite_of_mem_dacRecompute_coefficients par sr d
    · exact (dacFinite_iff.1 h).1
  · rw [dacRefresh_dacHistory]
    exact (dacFinite_iff.1 h).2

/-- The filter stores the value of a Nibble and a flushed sum beside the older history (R193). -/
theorem dacProcess_keeps_dacFinite (par : Params) (sr : F64) (n : Nibble) {d : Dac}
    (h : DacFinite d = true) : DacFinite (dacProcess par sr n d).2 = true := by
  obtain ⟨hcoeff, _⟩ := dacFinite_iff.1 (dacRefresh_keeps_dacFinite par sr h)
  have hhist := (dacFinite_iff.1 h).2
  refine dacFinite_iff.2 ⟨hcoeff, ?_⟩
  simp only [dacHistory, List.forall_mem_cons] at hhist
  obtain ⟨hx1, _, hy1, _⟩ := hhist
  simp [dacProcess_snd, dacHistory, isFinite_toFloat, hx1, hy1]

theorem exec_keeps_dacFinite {i : Instr} {s t : State} (h : exec i s = .next t)
    (hs : DacFinite s.dac = true) : DacFinite t.dac = true := by
  by_cases hp : ∃ sr, i = .process sr
  · obtain ⟨sr, rfl⟩ := hp
    obtain ⟨n, hdac, _⟩ := process_dac_answer h
    rw [hdac]
    exact dacProcess_keeps_dacFinite _ _ _ hs
  · rcases exec_dac_of_ne_process (fun sr e => hp ⟨sr, e⟩) h with e | ⟨_, e⟩ <;> rw [e] <;> exact hs

theorem noteFlagsAgree_envNoteOn (note : Byte) (velocity : F64) (par : Params) (e : Envelope) :
    NoteFlagsAgree (envNoteOn note velocity par e) = true := by
  simp [NoteFlagsAgree, envNoteOn, armAt_spec]

theorem noteFlagsAgree_envNoteOff (par : Params) (e : Envelope) :
    NoteFlagsAgree (envNoteOff par e) = true := by
  have hrelease : ∀ d : Envelope, (envRelease d).note_on = d.note_on := fun d => by
    unfold envRelease; rw [envLeave_spec]; split <;> rfl
  simp [NoteFlagsAgree, envNoteOff, armAt_spec, hrelease]

/-- A tick writes no register of the note, so neither flag (45_envelope.md R164, R165). -/
theorem noteFlagsAgree_envAdvance (par : Params) (sr : F64) (e : Envelope) :
    NoteFlagsAgree (envAdvance par sr e) = NoteFlagsAgree e := by
  have hnote := envAdvance_noteRegisters par sr e
  simp only [noteRegisters, Prod.mk.injEq] at hnote
  obtain ⟨_, _, hon, hvalid⟩ := hnote
  rw [NoteFlagsAgree, hon, hvalid, NoteFlagsAgree]

theorem exec_keeps_noteFlagsAgree {i : Instr} {s t : State} (h : exec i s = .next t)
    (hs : NoteFlagsAgree s.env = true) : NoteFlagsAgree t.env = true := by
  by_cases hp : ∃ sr, i = .process sr
  · obtain ⟨sr, rfl⟩ := hp
    rw [(process_env_dac h).1, noteFlagsAgree_envAdvance]
    exact hs
  · rcases exec_env_of_ne_process (fun sr e => hp ⟨sr, e⟩) h with e | ⟨_, _, _, e⟩ | ⟨_, _, e⟩ <;>
      rw [e]
    · exact hs
    · exact noteFlagsAgree_envNoteOn _ _ _ _
    · exact noteFlagsAgree_envNoteOff _ _

/-- Settles O57: a tick stores flushed values in the DAC and leaves the note alone, and a note event
leaves its two flags in agreement. -/
theorem dacStaysFiniteAndNotesStayValid : Obligations.DacStaysFiniteAndNotesStayValid := by
  unfold Obligations.DacStaysFiniteAndNotesStayValid
  intro s t h
  rcases step_cases h with rfl | ⟨rest, rfl | ⟨w, i, _, hexec⟩⟩
  · exact ⟨id, id⟩
  · exact ⟨id, id⟩
  · exact ⟨fun hs => exec_keeps_dacFinite hexec hs, fun hs => exec_keeps_noteFlagsAgree hexec hs⟩

end Sys2Proof.Machine
end

section
/-! PROOF. The events `NOTE_ON`, `NOTE_OFF`, `PITCH_BEND` and `SWEEP_RESET`, and the commands that
advance no time (47_voice.md R201 to R204, R236). -/

namespace Sys2Proof.Machine

/-! ## What a note event leaves in the envelope (R164, R165) -/

theorem envNoteOn_eq (note : Byte) (velocity : F64) (par : Params) (e : Envelope) :
    envNoteOn note velocity par e =
      { state := .attack, elapsed := 0, value := F64.zero, velocity := velocity, note := note
        note_valid := true, note_on := true
        last_state_value := if e.state.isSounding then e.value else e.last_state_value
        stuttering :=
          if par.StutterWhen = .noteOn then !par.StutterDepth.isNaN && !par.StutterDepth.isZero
          else false
        st_count := if par.StutterWhen = .noteOn then 0 else e.st_count
        stutter_velocity :=
          if par.StutterWhen = .noteOn then F64.one else e.stutter_velocity } := by
  rw [envNoteOn, armAt_spec, envLeave_spec]

theorem envNoteOff_eq (par : Params) (e : Envelope) :
    envNoteOff par e =
      { e with
        note_on := false
        state := if e.state.isSounding then .release else e.state
        elapsed := if e.state.isSounding then 0 else e.elapsed
        last_state_value := if e.state.isSounding then e.value else e.last_state_value
        stuttering :=
          if par.StutterWhen = .noteOff then !par.StutterDepth.isNaN && !par.StutterDepth.isZero
          else false
        st_count := if par.StutterWhen = .noteOff then 0 else e.st_count
        stutter_velocity :=
          if par.StutterWhen = .noteOff then F64.one else e.stutter_velocity } := by
  rw [envNoteOff, armAt_spec, envRelease, envLeave_spec]
  cases hs : e.state.isSounding <;> simp

/-- A velocity that is not finite gives the gain zero, whatever the curve is (R174). -/
theorem envGain_of_velocity_not_finite {e : Envelope} (h : e.velocity.isFinite = false) :
    envGain e = F64.zero := F64.nz_of_mul_not_finite _ h

/-- A sample tick keeps the velocity of the note (R174). -/
theorem envAdvance_velocity (par : Params) (sr : F64) (e : Envelope) :
    (envAdvance par sr e).velocity = e.velocity :=
  congrArg Prod.fst (envAdvance_noteRegisters par sr e)

/-- Settles O7: the envelope is `envNoteOn_eq`, and a tick keeps the velocity that the gain is
flushed by. -/
theorem noteOnSeedsAndTriggers : Obligations.NoteOnSeedsAndTriggers := by
  unfold Obligations.NoteOnSeedsAndTriggers
  intro note velocity s
  refine ⟨_, rfl, rfl, rfl, rfl, rfl, ?_⟩
  rw [done_env, State.setEnv_env, envNoteOn_eq]
  refine ⟨rfl, rfl, rfl, rfl, rfl, rfl, rfl, by simp only [isSounding_iff],
    fun hon => by simp [hon], fun hoff => by simp [hoff], rfl, rfl, rfl, rfl, rfl, fun hv par sr => ?_⟩
  apply envGain_of_velocity_not_finite
  rwa [envAdvance_velocity]

/-- Settles O8: the envelope is `envNoteOff_eq`, and the other units are not written. -/
theorem noteOffReleases : Obligations.NoteOffReleases := by
  unfold Obligations.NoteOffReleases
  intro note s
  refine ⟨_, rfl, ?_⟩
  rw [done_env, State.setEnv_env, envNoteOff_eq]
  refine ⟨fun h => ?_, fun h => ?_, ?_⟩
  · simp [isSounding_iff.2 h]
  · rcases h with h | h <;> simp [h, EnvState.isSounding]
  · simp +contextual [Answered]

/-- Settles O9: each command is one register write. -/
theorem pitchBendAndSweepReset : Obligations.PitchBendAndSweepReset := by
  unfold Obligations.PitchBendAndSweepReset
  exact ⟨fun _ _ => rfl, fun _ _ => rfl⟩

/-! ## Commands that advance no time (R236) -/

/-- Settles O31, unit by unit: of the commands but `PROCESS`, the writers of a unit keep its time or
clear it. -/
theorem onlyProcessAdvancesTime : Obligations.OnlyProcessAdvancesTime := by
  unfold Obligations.OnlyProcessAdvancesTime
  intro i s t h hp
  obtain ⟨hno, hsq, _, hwt, hsw, henv, hdac, _⟩ := exec_units h hp
  refine ⟨?_, ?_, hno, ?_, ?_, ?_, ?_⟩
  · rcases hsq with e | ⟨_, _, _, e⟩ <;> rw [e]
  · rcases hwt with e | ⟨_, _, _, e⟩ | ⟨_, _, e⟩ | ⟨_, e⟩ <;> rw [e]
  · rcases hsw with e | ⟨_, _, _, e⟩ | ⟨_, _, e⟩ <;> rw [e]
    · exact .inl rfl
    · exact .inr rfl
    · exact .inr rfl
  · rcases henv with e | ⟨_, _, _, e⟩ | ⟨_, _, e⟩ <;> rw [e]
    · exact .inl rfl
    · rw [envNoteOn_eq]; exact .inr rfl
    · rw [envNoteOff_eq]; exact (ite_eq_or_eq _ _ _).symm
  · rcases henv with e | ⟨_, _, _, e⟩ | ⟨_, _, e⟩ <;> rw [e]
    · exact .inl rfl
    · rw [envNoteOn_eq]; exact (ite_eq_or_eq _ _ _).symm
    · rw [envNoteOff_eq]; exact (ite_eq_or_eq _ _ _).symm
  · rcases hdac with e | ⟨_, e⟩ <;> rw [e]
    rfl

end Sys2Proof.Machine
end

section
/-! PROOF. The parameter commands and `GET_STATUS` (47_voice.md R211 to R231, R233;
60_exceptions.md R250). -/

namespace Sys2Proof.F64

/-- `real` tells integers below 2^53 apart. -/
theorem key_real_inj {a b : Int} (ha : a.natAbs < 2 ^ 53) (hb : b.natAbs < 2 ^ 53)
    (h : (real a).key = (real b).key) : a = b :=
  le_antisymm ((key_real_le_key_real_iff ha hb).1 h.le) ((key_real_le_key_real_iff hb ha).1 h.ge)

end Sys2Proof.F64

namespace Sys2Proof.Machine

/-! ## The codes of the enumerations (R211) -/

/-- A value that is one code is no other (the enumerations have at most four). -/
theorem isCode_of_isCode {v : F64} {n m : Nat} (h : isCode v n = true) (hn : n < 4)
    (hm : m < 4) : isCode v m = decide (m = n) := by
  obtain ⟨hv, _, hkey⟩ := F64.eq_iff.1 h
  rw [Bool.eq_iff_iff, decide_eq_true_iff, isCode, F64.eq_iff, hkey]
  constructor
  · rintro ⟨_, _, hnm⟩
    exact_mod_cast F64.key_real_inj (a := m) (b := n) (by omega) (by omega) hnm.symm
  · rintro rfl
    exact ⟨hv, by simp, rfl⟩

theorem isCode_negZero : isCode F64.negZero 0 = true := by decide +kernel

/-- The code read back is the value itself, but for `-0.0`, which reads as 0 (R211). -/
theorem real_of_isCode {v : F64} {n : Nat} (h : isCode v n = true) (hn : n < 4) :
    F64.real n = if v = F64.negZero then F64.zero else v := by
  obtain ⟨_, _, hkey⟩ := F64.eq_iff.1 h
  cases hz : v.isZero with
  | false =>
    have hne : v ≠ F64.negZero := by rintro rfl; revert hz; decide +kernel
    rw [if_neg hne, F64.eq_of_key_eq hz hkey]
  | true =>
    have hn0 : n = 0 := by
      have h0 : isCode v 0 = true := by rw [isCode]; exact F64.eq_zero_of_isZero hz
      simpa [isCode_of_isCode h hn, eq_comm] using h0
    subst hn0
    rcases F64.eq_zero_or_negZero hz with rfl | rfl <;> decide +kernel

theorem oscTypeOf_eq_some_iff {v : F64} {c : OscType} :
    oscTypeOf v = some c ↔ isCode v c.code = true := by
  constructor
  · intro h
    unfold oscTypeOf at h
    split_ifs at h <;> cases h <;> assumption
  · intro h
    cases c <;> simp [oscTypeOf, isCode_of_isCode h (by decide), OscType.code]

theorem oscTypeOf_eq_none {v : F64} (h : ∀ k : Fin 3, isCode v k.val = false) :
    oscTypeOf v = none := by
  simp_all [oscTypeOf, Fin.forall_fin_succ]

theorem sweepTypeOf_eq_some_iff {v : F64} {c : SweepType} :
    sweepTypeOf v = some c ↔ isCode v c.code = true := by
  constructor
  · intro h
    unfold sweepTypeOf at h
    split_ifs at h <;> cases h <;> assumption
  · intro h
    cases c <;> simp [sweepTypeOf, isCode_of_isCode h (by decide), SweepType.code]

theorem sweepTypeOf_eq_none {v : F64} (h : ∀ k : Fin 4, isCode v k.val = false) :
    sweepTypeOf v = none := by
  simp_all [sweepTypeOf, Fin.forall_fin_succ]

theorem stutterWhenOf_eq_some_iff {v : F64} {c : StutterWhen} :
    stutterWhenOf v = some c ↔ isCode v c.code = true := by
  constructor
  · intro h
    unfold stutterWhenOf at h
    split_ifs at h <;> cases h <;> assumption
  · intro h
    cases c <;> simp [stutterWhenOf, isCode_of_isCode h (by decide), StutterWhen.code]

theorem stutterWhenOf_eq_none {v : F64} (h : ∀ k : Fin 2, isCode v k.val = false) :
    stutterWhenOf v = none := by
  simp_all [stutterWhenOf, Fin.forall_fin_succ]

theorem squareDutyOf_eq_some_iff {v : F64} {c : SquareDuty} :
    squareDutyOf v = some c ↔ isCode v c.code.val = true := by
  constructor
  · intro h
    unfold squareDutyOf at h
    split_ifs at h <;> cases h <;> assumption
  · intro h
    cases c <;> simp [squareDutyOf, isCode_of_isCode h (by decide), SquareDuty.code]

theorem squareDutyOf_eq_none {v : F64} (h : ∀ k : Fin 4, isCode v k.val = false) :
    squareDutyOf v = none := by
  simp_all [squareDutyOf, Fin.forall_fin_succ]

/-! ## The writes of the parameters -/

/-- A parameter write is `OK` and nothing else (R211). -/
theorem stores_of_storeParam {i : Instr} {s : State} {p : Params} (h : exec i s = storeParam p s) :
    Stores i s p := h

/-- An enumeration write of a code stores it (R211). -/
theorem stores_of_storeCode {α : Type} {i : Instr} {s : State} {c : Option α} {k : α}
    {w : α → Params} (h : exec i s = storeCode c w s) (hc : c = some k) : Stores i s (w k) := by
  rw [hc] at h
  exact stores_of_storeParam h

/-- An enumeration write of anything else is refused (R250). -/
theorem rejects_of_storeCode {α : Type} {i : Instr} {s : State} {c : Option α} {w : α → Params}
    (h : exec i s = storeCode c w s) (hc : c = none) : Rejects i s := by
  rw [hc] at h
  exact h

/-- Settles O15: each of the ten is `storeParam` of the register it writes. -/
theorem realParametersStoreAnyValue : Obligations.RealParametersStoreAnyValue := by
  unfold Obligations.RealParametersStoreAnyValue
  intro c hc v s
  simp only [plainSetters, List.mem_cons, List.not_mem_nil, or_false] at hc
  rcases hc with rfl | rfl | rfl | rfl | rfl | rfl | rfl | rfl | rfl | rfl <;>
    exact stores_of_storeParam rfl

/-- Settles O16: the exponents of the three quoted offsets are the integers 1, 0 and -1 exactly,
where `P_EXP2_INT` gives the ratio. -/
theorem semitoneOffsetsSetThePitchRatio : Obligations.SemitoneOffsetsSetThePitchRatio := by
  unfold Obligations.SemitoneOffsetsSetThePitchRatio
  refine ⟨fun _ _ => rfl, fun _ _ => rfl, fun n r s hnr hdetune => ⟨_, rfl, ?_⟩⟩
  show CFG.exp2 ((((F64.real n).add s.par.Detune).mul (F64.real 100)).div K.CENTS_OCT) = r
  have octave (n k : Int) (hk0 : -1022 ≤ k) (hk1 : k ≤ 1023)
      (h : (((F64.real n).add F64.zero).mul (F64.real 100)).div K.CENTS_OCT = F64.real k) :
      CFG.exp2 ((((F64.real n).add s.par.Detune).mul (F64.real 100)).div K.CENTS_OCT) =
        F64.pow2 k := by
    rw [hdetune, h, CFG.exp2_real hk0 hk1]
  rcases hnr with h | h | h <;> cases h
  · rw [octave 12 1 (by decide) (by decide) (by decide +kernel)]; decide +kernel
  · rw [octave 0 0 (by decide) (by decide) (by decide +kernel)]; decide +kernel
  · rw [octave (-12) (-1) (by decide) (by decide) (by decide +kernel)]; decide +kernel

/-- Settles O17: the write marks the coefficients stale, and a tick with stale coefficients
recomputes them (`dacCaching`). -/
theorem dacParametersSetDirty : Obligations.DacParametersSetDirty := by
  unfold Obligations.DacParametersSetDirty
  refine ⟨fun _ _ => rfl, fun _ _ => rfl, fun i v sr s t u hi hset hproc => ?_⟩
  have hdirty : t.dac.dirty = true := by rcases hi with rfl | rfl <;> cases hset <;> rfl
  obtain ⟨_, hrecompute, _⟩ := dacCaching _ _ _ hproc
  exact hrecompute sr rfl hdirty

/-- Settles O18: a value is stored exactly where it is a code, and of the statuses only `storeCode`
answers `NOT_REPRESENTABLE` (`exec_port`). -/
theorem enumerationsStoreOnlyTheirCodes : Obligations.EnumerationsStoreOnlyTheirCodes := by
  unfold Obligations.EnumerationsStoreOnlyTheirCodes
  refine ⟨fun v s => ?_, fun v s => ?_, fun v s => ?_, fun v s => ?_, fun i s t r h hr hst => ?_⟩
  · have hcode (c : OscType) (h : isCode v c.code = true) :=
      stores_of_storeCode (i := .setParamOscType v) (s := s) rfl (oscTypeOf_eq_some_iff.2 h)
    exact ⟨hcode .square, hcode .noise, hcode .wavetable,
      fun h => rejects_of_storeCode rfl (oscTypeOf_eq_none h)⟩
  · have hcode (c : SweepType) (h : isCode v c.code = true) :=
      stores_of_storeCode (i := .setParamSweepType v) (s := s) rfl (sweepTypeOf_eq_some_iff.2 h)
    exact ⟨hcode .none, hcode .up, hcode .down, hcode .triangle,
      fun h => rejects_of_storeCode rfl (sweepTypeOf_eq_none h)⟩
  · have hcode (c : StutterWhen) (h : isCode v c.code = true) :=
      stores_of_storeCode (i := .setParamStutterWhen v) (s := s) rfl (stutterWhenOf_eq_some_iff.2 h)
    exact ⟨hcode .noteOn, hcode .noteOff,
      fun h => rejects_of_storeCode rfl (stutterWhenOf_eq_none h)⟩
  · have hcode (c : SquareDuty) (h : isCode v c.code.val = true) :=
      stores_of_storeCode (i := .setParamSquareDuty v) (s := s) rfl (squareDutyOf_eq_some_iff.2 h)
    exact ⟨hcode .d12_5, hcode .d25, hcode .d50, hcode .d75,
      fun h => rejects_of_storeCode rfl (squareDutyOf_eq_none h)⟩
  · obtain ⟨st, d, _, hport, herr⟩ := exec_port h
    obtain rfl : responseWord st d = r := by simpa [hport] using hr
    rw [statusField_responseWord] at hst
    obtain ⟨_, _, _, hi⟩ := herr (by rintro rfl; cases hst)
    exact hi

/-! ## The reads -/

/-- Each `GET_PARAM` is `loadParam` of the value it returns, at its id (R231, 10_state.md R40). -/
theorem getters_spec {k : Nat} {c : Instr × (Params → F64)} (h : getters[k]? = some c) :
    k < 18 ∧ getParamOf (BitVec.ofNat 8 k) = some c.1 ∧
      ∀ s, exec c.1 s = loadParam (c.2 s.par) s := by
  obtain ⟨hk, rfl⟩ := List.getElem?_eq_some_iff.1 h
  have hk18 : k < 18 := hk
  refine ⟨hk18, ?_⟩
  interval_cases k <;> exact ⟨rfl, fun _ => rfl⟩

/-- Settles O19: the id's row is the getter, the getter is `loadParam`, and the response has the
pattern of the value or, for a NaN, a free NaN pattern. -/
theorem getParamReturnsTheRegister : Obligations.GetParamReturnsTheRegister := by
  unfold Obligations.GetParamReturnsTheRegister
  refine ⟨fun k c d h => ?_, fun id d hid => ?_, fun c hc s => ?_⟩
  · obtain ⟨_, hrow, _⟩ := getters_spec h
    exact decode_getParam hrow
  · exact isReserved_iff_decode_error.1 (by simp [isReserved, hid])
  · obtain ⟨k, hk⟩ := List.mem_iff_getElem?.1 hc
    obtain ⟨_, _, hexec⟩ := getters_spec hk
    obtain ⟨b, hport, hnumber, hnan⟩ := respondReal_answer (c.2 s.par) s
    refine ⟨_, hexec s, respondReal_sameBlock _ _, fun h => ?_, fun h => ⟨b, hnan h, hport⟩⟩
    rw [← hnumber h]
    exact ⟨by simp [h], hport⟩

/-- An enumeration write answered `OK` stored a code that reads back as the value, but for `-0.0`
(R211). -/
theorem storeCode_reads_back {α : Type} {c : Option α} {code : α → Nat} {w : α → Params} {v : F64}
    {s t : State} (hcode : ∀ {k}, c = some k ↔ isCode v (code k) = true) (hlt : ∀ k, code k < 4)
    (h : storeCode c w s = .next t) (hok : t.port.response = some (responseWord .ok 0)) :
    ∃ k, t.par = w k ∧ F64.real (code k) = if v = F64.negZero then F64.zero else v := by
  rcases storeCode_cases h with ⟨k, hc, rfl⟩ | ⟨_, rfl⟩
  · exact ⟨k, rfl, real_of_isCode (hcode.1 hc) (hlt k)⟩
  · have hst := congrArg statusField (Option.some.inj hok)
    rw [statusField_responseWord, statusField_responseWord] at hst
    cases hst

/-- The value a getter reads after its setter was answered `OK`: the operand, and of an enumeration
the code, which is the operand but for `-0.0` (R211). -/
theorem getter_after_setter {k : Nat} {set : F64 → Instr} {get : Instr × (Params → F64)} {v : F64}
    {s t : State} (hset : allSetters[k]? = some set) (hget : getters[k]? = some get)
    (h : exec (set v) s = .next t) (hok : t.port.response = some (responseWord .ok 0)) :
    get.2 t.par =
      if (k = 3 ∨ k = 4 ∨ k = 9 ∨ k = 14) ∧ v = F64.negZero then F64.zero else v := by
  obtain ⟨hk, rfl⟩ := List.getElem?_eq_some_iff.1 hset
  obtain ⟨_, rfl⟩ := List.getElem?_eq_some_iff.1 hget
  have hk18 : k < 18 := hk
  -- the enumerations are ids 3, 4, 9 and 14; the other registers are real (10_state.md R40)
  interval_cases k
  iterate 3 (cases h; rfl)
  · obtain ⟨c, hpar, hread⟩ :=
      storeCode_reads_back oscTypeOf_eq_some_iff (by rintro ⟨⟩ <;> decide) h hok
    simpa [hpar, getters] using hread
  · obtain ⟨c, hpar, hread⟩ :=
      storeCode_reads_back sweepTypeOf_eq_some_iff (by rintro ⟨⟩ <;> decide) h hok
    simpa [hpar, getters] using hread
  iterate 4 (cases h; rfl)
  · obtain ⟨c, hpar, hread⟩ :=
      storeCode_reads_back stutterWhenOf_eq_some_iff (by rintro ⟨⟩ <;> decide) h hok
    simpa [hpar, getters] using hread
  iterate 4 (cases h; rfl)
  · obtain ⟨c, hpar, hread⟩ :=
      storeCode_reads_back squareDutyOf_eq_some_iff (by rintro ⟨⟩ <;> decide) h hok
    simpa [hpar, getters] using hread
  iterate 3 (cases h; rfl)

/-- Settles O20: the getter reads what its setter stored, and a number is answered with its own
pattern. -/
theorem setThenGetReturnsTheValue : Obligations.SetThenGetReturnsTheValue := by
  unfold Obligations.SetThenGetReturnsTheValue
  intro k set get v s t hset hget hv h hok
  obtain ⟨_, _, hexec⟩ := getters_spec hget
  have hread := getter_after_setter hset hget h hok
  have hnumber : (get.2 t.par).isNaN = false := by
    rw [hread]; split
    · exact F64.isNaN_zero
    · exact hv
  refine ⟨_, hexec t, respondReal_sameBlock _ _, ?_⟩
  rw [← hread, respondReal_of_number hnumber]
  rfl

/-! ## `GET_STATUS` (R233) -/

/-- Each bit of the status view is a bit of the field it stands in (R233). -/
theorem getLsbD_statusView (e : Envelope) (clipped dirty : Bool) (i : Nat) :
    (statusView e clipped dirty).getLsbD i =
      if i < 3 then e.state.code.getLsbD i
      else if i < 4 then (flagBit e.note_on).getLsbD (i - 3)
      else if i < 5 then (flagBit e.stuttering).getLsbD (i - 4)
      else if i < 6 then (flagBit clipped).getLsbD (i - 5)
      else if i < 7 then (flagBit dirty).getLsbD (i - 6)
      else if i < 8 then (0#1).getLsbD (i - 7)
      else if i < 16 then e.note.getLsbD (i - 8)
      else if i < 17 then (flagBit e.note_valid).getLsbD (i - 16)
      else (0#111).getLsbD (i - 17) := by
  have hflag (k : Nat) : i - k < 1 ↔ i < k + 1 := by omega
  have hnote : i - 8 < 8 ↔ i < 16 := by omega
  show ((0#111) ++ flagBit e.note_valid ++ e.note ++ (0#1) ++ flagBit dirty ++ flagBit clipped
    ++ flagBit e.stuttering ++ flagBit e.note_on ++ e.state.code).getLsbD i = _
  simp only [BitVec.getLsbD_append]
  simp only [Nat.sub_sub, Nat.reduceAdd, hflag, hnote]

/-- The fields of more than one bit, and the bits above the last field (R233). -/
theorem extractLsb'_statusView (e : Envelope) (clipped dirty : Bool) :
    (statusView e clipped dirty).extractLsb' 0 3 = e.state.code ∧
      (statusView e clipped dirty).extractLsb' 8 8 = e.note ∧
      (statusView e clipped dirty).extractLsb' 17 111 = 0#111 := by
  refine ⟨BitVec.eq_of_getLsbD_eq fun i hi => ?_, BitVec.eq_of_getLsbD_eq fun i hi => ?_,
    BitVec.eq_of_getLsbD_eq fun i hi => ?_⟩ <;>
    rw [BitVec.getLsbD_extractLsb', decide_eq_true hi, Bool.true_and, getLsbD_statusView]
  · rw [if_pos (by omega), Nat.zero_add]
  · iterate 6 rw [if_neg (by omega)]
    rw [if_pos (by omega), Nat.add_sub_cancel_left]
  · iterate 8 rw [if_neg (by omega)]
    rw [BitVec.getLsbD_zero, BitVec.getLsbD_zero]

/-- Settles O24, field by field of the word that `statusView` appends. -/
theorem getStatusLayout : Obligations.GetStatusLayout := by
  unfold Obligations.GetStatusLayout
  intro s
  obtain ⟨hcode, hnote, hhigh⟩ := extractLsb'_statusView s.env s.sw.clipped s.dac.dirty
  refine ⟨_, _, rfl, ⟨rfl, rfl, rfl, rfl, rfl, rfl, rfl, rfl⟩, rfl, rfl, ?_⟩
  rw [hcode, hnote, hhigh]
  refine ⟨by cases s.env.state <;> rfl, ?_⟩
  simp [getLsbD_statusView, flagBit, -BitVec.getLsbD_eq_getElem]

end Sys2Proof.Machine
end

section
/-! PROOF. The sample tick as a whole (47_voice.md R210, R235). -/

namespace Sys2Proof.F64

theorem isFinite_eq_false_iff {x : F64} : x.isFinite = false ↔ x.isNaN = true ∨ x.isInf = true := by
  simp only [isFinite, isNaN, isInf, decide_eq_false_iff_not, decide_eq_true_eq, beq_iff_eq]
  omega

/-- A zero times a finite number is a zero. -/
theorem isZero_zero_mul {x : F64} (h : x.isFinite = true) : (zero.mul x).isZero = true := by
  have hsz : ∀ b, (signedZero b).isZero = true := by decide +kernel
  simp [mul, isNaN_eq_false_of_isFinite h, isInf_eq_false_of_isFinite h, round, hsz]

end Sys2Proof.F64

namespace Sys2Proof.Machine

/-! ## The rates (R235) -/

/-- The rates that are not accepted: no finite number, or none above zero. -/
theorem acceptedRate_eq_false_iff {sr : F64} :
    acceptedRate sr = false ↔ sr.isNaN = true ∨ sr.isInf = true ∨ sr.le F64.zero = true := by
  rw [acceptedRate, Bool.and_eq_false_iff, F64.isFinite_eq_false_iff, or_assoc]
  cases hnan : sr.isNaN with
  | true => simp
  | false =>
    have hle : sr.le F64.zero = !sr.gt F64.zero := F64.ge_eq_not_lt F64.isNaN_zero hnan
    simp [hle]

/-- An accepted tick is refused by no arm: it completes or faults. -/
theorem process_not_refused {sr : F64} (ha : acceptedRate sr = true) (s : State) (r : Refusal) :
    exec (.process sr) s ≠ .refused r := by
  simp only [exec, execProcess, ha, if_true]
  split <;> simp

/-- Settles O26: of the rates `PROCESS` refuses those that are not accepted, and every other command
completes. -/
theorem onlyBadSampleRatesAreRefused : Obligations.OnlyBadSampleRatesAreRefused := by
  unfold Obligations.OnlyBadSampleRatesAreRefused
  refine ⟨fun sr s => ?_, fun i s r h => ?_⟩
  · rw [← acceptedRate_eq_false_iff]
    exact ⟨fun h => Bool.eq_false_iff.2 fun ha => process_not_refused ha s _ h,
      fun ha => process_refused ha s⟩
  · by_cases hp : ∃ sr, i = .process sr
    · obtain ⟨sr, rfl⟩ := hp
      refine ⟨?_, sr, rfl⟩
      cases ha : acceptedRate sr with
      | true => exact absurd h (process_not_refused ha s r)
      | false => rw [process_refused ha] at h; cases h; rfl
    · obtain ⟨t, ht⟩ := exec_completes_of_ne_process (fun sr e => hp ⟨sr, e⟩) s
      rw [ht] at h; cases h

/-! ## The four ticks (R210) -/

/-- An accepted tick is the sample stage followed by the rest of the tick. -/
theorem process_of_sampleStage {sr : F64} {s u : State} {o : Nibble} (ha : acceptedRate sr = true)
    (h : sampleStage sr s = .ok (o, u)) : exec (.process sr) s = .next (finishTick sr o u) := by
  simp only [exec, execProcess, ha, if_true, h, outputStage_spec]
  rfl

/-- While the sweep is not clipped the sample is the oscillator's, stepped after the sweep. -/
theorem process_of_oscillatorStage {sr : F64} {s u : State} {o : Nibble}
    (ha : acceptedRate sr = true) (hc : s.sw.clipped = false)
    (h : oscillatorStage sr (sweepStage sr s) = .ok (o, u)) :
    exec (.process sr) s = .next (finishTick sr o u) :=
  process_of_sampleStage ha (by simp [sampleStage, hc, h])

/-- Silence stays silence at every finite gain (R104). -/
theorem nibScale_silence {g : F64} (h : g.isFinite = true) : nibScale NIB_ZERO g = NIB_ZERO := by
  have hlevel : F64.real (level NIB_ZERO) = F64.zero := by decide +kernel
  have hzero : ∀ z : F64, z = F64.zero ∨ z = F64.negZero →
      z.isInf = false ∧ clampNibble z.rnd = NIB_ZERO := by
    rintro z (rfl | rfl) <;> decide +kernel
  obtain ⟨hinf, hrnd⟩ := hzero _ (F64.eq_zero_or_negZero (F64.isZero_zero_mul h))
  simp [nibScale, hlevel, hinf, hrnd]

/-- Settles O27: the sample stage answers silence with nothing stepped, and silence scaled is
silence. -/
theorem clippedTick : Obligations.ClippedTick := by
  unfold Obligations.ClippedTick
  intro sr s ha hc
  have hsample : sampleStage sr s = .ok (NIB_ZERO, s) := by simp [sampleStage, hc]
  have hgain : (envProcess s.par sr s.env).1.isFinite = true := isFinite_envGain _
  rw [process_of_sampleStage ha hsample, finishTick, nibScale_silence hgain]

/-- Settles O28, by the square's arm of the oscillator stage. -/
theorem squareTick : Obligations.SquareTick := by
  unfold Obligations.SquareTick
  intro sr s ha hc ho
  refine process_of_oscillatorStage ha hc ?_
  have hosc : (sweepStage sr s).par.OscType = .square := ho
  rw [oscillatorStage, hosc]
  rfl

/-- Settles O29, by the noise's arm of the oscillator stage. -/
theorem noiseTick : Obligations.NoiseTick := by
  unfold Obligations.NoiseTick
  intro sr s ha hc ho
  refine process_of_oscillatorStage ha hc ?_
  have hosc : (sweepStage sr s).par.OscType = .noise := ho
  rw [oscillatorStage, hosc]
  rfl

/-- Settles O30, by the wavetable's arm of the oscillator stage, whose look-up has a result. -/
theorem wavetableTick : Obligations.WavetableTick := by
  unfold Obligations.WavetableTick
  intro sr s ha hc ho hphase
  obtain ⟨hidx, hlookup⟩ := wtLookup_of_inRange hphase
  refine ⟨hidx, process_of_oscillatorStage ha hc ?_⟩
  have hosc : (sweepStage sr s).par.OscType = .wavetable := ho
  rw [oscillatorStage, hosc]
  have hsample : wtProcess sr { s.wt with frequency := (sweepStage sr s).vo.freq } =
      some (s.wt.table[s.wt.phase.floor.toNat],
        wtAdvance sr { s.wt with frequency := (sweepStage sr s).vo.freq }) :=
    congrArg (Option.map _) hlookup
  have hwt : (sweepStage sr s).wt = s.wt := rfl
  simp only [hwt, hsample]
  rfl

end Sys2Proof.Machine
end

section
/-! PROOF. The answers at the port and its errors (60_exceptions.md R251, R252; 30_encoding.md
R84). -/

namespace Sys2Proof.Machine

/-- An illegal word is answered with `ILLEGAL_COMMAND` (R251). -/
theorem step_of_decode_error {s : State} {w : CommandWord} {rest : List CommandWord}
    {e : DecodeError} (hc : s.port.commands = w :: rest) (hd : decode w = .error e) :
    step s = .next (raise .illegalCommand (s.setCommands rest)) := by
  simp only [step, hc, hd]

/-- The answer of a step that took a word: the word was illegal, or it decoded to a command, whose
answer is not `ILLEGAL_COMMAND` and, if not `OK`, precise (R252). -/
theorem step_answer {s t : State} {w : CommandWord} {rest : List CommandWord}
    (hc : s.port.commands = w :: rest) (h : step s = .next t) :
    ∃ st d, t.port = { commands := rest, response := some (responseWord st d) } ∧
      (isReserved w = true ↔ st = .illegalCommand) ∧
      (st ≠ .ok → d = 0 ∧ SameBlock s t ∧ t.draws = s.draws) := by
  cases hd : decode w with
  | error e =>
    rw [step_of_decode_error hc hd] at h
    cases h
    exact ⟨.illegalCommand, 0, rfl, by simp [isReserved_iff_decode_error, hd],
      fun _ => ⟨rfl, ⟨rfl, rfl, rfl, rfl, rfl, rfl, rfl, rfl⟩, rfl⟩⟩
  | ok i =>
    rw [step_of_decode_ok hc hd] at h
    obtain ⟨st, d, hst, hport, herr⟩ := exec_port h
    refine ⟨st, d, hport, by simp [isReserved_iff_decode_error, hd, hst], fun hne => ?_⟩
    obtain ⟨hd0, hsame, hdraws, _⟩ := herr hne
    exact ⟨hd0, hsame, hdraws⟩

/-- Settles O4: a reserved word has no command, and no command is answered `ILLEGAL_COMMAND`. -/
theorem illegalWordsChangeNothing : Obligations.IllegalWordsChangeNothing := by
  unfold Obligations.IllegalWordsChangeNothing
  intro s w rest hc
  constructor
  · intro hres
    obtain ⟨e, hd⟩ := isReserved_iff_decode_error.1 hres
    exact ⟨_, step_of_decode_error hc hd, ⟨rfl, rfl, rfl, rfl, rfl, rfl, rfl, rfl⟩, rfl, rfl⟩
  · intro hres t h
    obtain ⟨st, d, hport, hillegal, _⟩ := step_answer hc h
    refine ⟨_, by rw [hport], ?_⟩
    have hst : st ≠ .illegalCommand := fun e => by simp [hillegal.2 e] at hres
    rw [statusField_responseWord]
    cases st
    · decide
    · decide
    · exact absurd rfl hst

/-- Settles O23: every answer has one of the three statuses, and one that is not `OK` is precise. -/
theorem commandsAreAnsweredAndErrorsArePrecise :
    Obligations.CommandsAreAnsweredAndErrorsArePrecise := by
  unfold Obligations.CommandsAreAnsweredAndErrorsArePrecise
  intro s t w rest hc h
  obtain ⟨st, d, hport, _, herr⟩ := step_answer hc h
  refine ⟨by rw [hport], _, by rw [hport], ?_, ?_⟩
  · rw [statusField_responseWord]
    cases st <;> simp [Status.code]
  · rw [statusField_responseWord, rdataField_responseWord]
    exact fun hne => herr (by rintro rfl; exact hne rfl)

end Sys2Proof.Machine
end

section
/-! PROOF. The launch state and the first commands after it (70_reset_and_hazards.md R271, R272). -/

namespace Sys2Proof.F64

/-- A positive number has its sign bit clear. -/
theorem sign_of_gt_zero {x : F64} (h : x.gt zero = true) : x.sign = false := by
  obtain ⟨_, _, hkey⟩ := gt_iff.1 h
  rw [key_zero, key] at hkey
  by_contra hs
  rw [if_pos (by simpa using hs)] at hkey
  omega

/-- Zero divided by a positive number is the positive zero. -/
theorem zero_div_of_pos {x : F64} (hfin : x.isFinite = true) (h : x.gt zero = true) :
    zero.div x = zero := by
  have hnz : x.isZero = false := by
    obtain ⟨_, _, hkey⟩ := gt_iff.1 h
    have := x.natAbs_key
    rw [key_zero] at hkey
    simp only [isZero, beq_eq_false_iff_ne]
    omega
  have hs : zero.sign = false := by decide +kernel
  simp [div, isNaN_eq_false_of_isFinite hfin, isInf_eq_false_of_isFinite hfin, hnz, hs,
    sign_of_gt_zero h, round, signedZero]

end Sys2Proof.F64

namespace Sys2Proof.Machine

/-- Settles O53, by the definition of `State.launch`. -/
theorem launchState : Obligations.LaunchState := by
  unfold Obligations.LaunchState
  refine ⟨?_, _, rfl⟩
  rintro wtReset pReset _ rfl
  exact ⟨rfl, rfl, rfl, rfl, rfl, rfl, rfl, rfl⟩

theorem phasesInRange_launch (wtReset : Vector Nibble WT_LEN) (pReset : Params) :
    PhasesInRange (State.launch wtReset pReset) = true := by
  have h : (inRange F64.zero F64.one F64.zero && inRange F64.zero wtLen F64.zero) = true := by
    decide +kernel
  exact h

/-- Settles O55: every real register of the launch state but the parameters is 0.0 or 1.0. -/
theorem launchMeetsTheInvariants : Obligations.LaunchMeetsTheInvariants := by
  unfold Obligations.LaunchMeetsTheInvariants
  rintro wtReset pReset _ rfl
  refine ⟨phasesInRange_launch wtReset pReset, ?_, rfl, fun hpar => ?_⟩
  · simp [State.launch, DacFinite]
  · rw [RegistersCanonical, Bool.and_eq_true]
    exact ⟨by simp [datapathReals, State.launch], hpar⟩

/-- At launch the status has the dirty flag and nothing else (R272). The launch parameters are no
part of it, so it is evaluated at those of `State.reset`. -/
theorem statusView_launch (wtReset : Vector Nibble WT_LEN) (pReset : Params) :
    statusView (State.launch wtReset pReset).env (State.launch wtReset pReset).sw.clipped
      (State.launch wtReset pReset).dac.dirty = 0x40 := by
  show statusView State.reset.env State.reset.sw.clipped State.reset.dac.dirty = 0x40
  decide +kernel

/-- At launch no note is on and the voice is Off, so under either setting every note is assignable
(45_envelope.md R176). -/
theorem assignable_launch (wtReset : Vector Nibble WT_LEN) (pReset : Params) (note : Byte) :
    assignable note (State.launch wtReset pReset).par (State.launch wtReset pReset).env = true := by
  cases hw : pReset.StutterWhen with
  | noteOn => exact (assignable_of_noteOn note _ hw).2 (.inr rfl)
  | noteOff => exact (assignable_of_noteOff note _ hw).2 (.inr (.inl (.inr rfl)))

/-- A tick answers with the DAC's output (47_voice.md R210). -/
theorem process_answered {sr : F64} {s t : State} (h : exec (.process sr) s = .next t) :
    Answered s t .ok ((0#64) ++ t.dac.y1.bits) := by
  obtain ⟨_, o, u, rfl, _, _, _, hport, _⟩ := process_cases h
  rw [Answered, ← hport]
  rfl

/-- With the history zero the DAC answers silence with 0.0, for all coefficients (R193). -/
theorem dacProcess_silence (par : Params) (sr : F64) {d : Dac}
    (h : ∀ x ∈ dacHistory d, x = F64.zero) : (dacProcess par sr NIB_ZERO d).2.y1 = F64.zero := by
  have hx : toFloat NIB_ZERO = F64.zero := by decide +kernel
  have hadd : F64.zero.add F64.zero = F64.zero := by decide +kernel
  have hsub : F64.zero.sub F64.zero = F64.zero := by decide +kernel
  rw [← dacRefresh_dacHistory par sr d] at h
  simp only [dacHistory, List.forall_mem_cons] at h
  obtain ⟨hx1, hx2, hy1, hy2, _⟩ := h
  rw [dacProcess_snd, hx]
  simp only [dacOutput, hx1, hx2, hy1, hy2, F64.nz_of_mul_zero, hadd, hsub, F64.nz_zero]

/-- A shadow frequency of 0.0 gives the delta 0.0 in Up and Down, before the period and at its end
(44_sweep.md R148). -/
theorem swUpDown_delta_of_shadow_zero (up : Bool) (par : Params) (sr : F64) {sw : Sweep}
    (hshadow : sw.shadow_freq = F64.zero) : (swUpDown up par sr sw).1 = F64.zero := by
  have hdelta (amount : F64) : sweepDelta F64.zero amount = F64.zero := by
    rw [sweepDelta, F64.nz_of_zero_mul, ite_self]
  have hneg : F64.zero.neg.nz = F64.zero := by decide +kernel
  cases hdue : (timerAdvanced sr sw).ge (sweepPeriodSeconds par.SweepPeriod) with
  | false => rw [swUpDown_of_not_ge up hdue]
  | true => rw [swUpDown_of_ge up hdue, hshadow, hdelta, hneg, ite_self]

/-- A shadow frequency of 0.0 gives the delta 0.0 in every mode but Triangle, whose delta is free
(R146 to R150). -/
theorem swProcess_delta_of_shadow_zero {par : Params} (sr : F64) {sw : Sweep}
    (hshadow : sw.shadow_freq = F64.zero) (hmode : par.SweepType ≠ .triangle) :
    (swProcess par sr sw).1 = F64.zero := by
  unfold swProcess
  split
  · rfl
  · split
    · rfl
    · exact swUpDown_delta_of_shadow_zero _ _ _ hshadow
    · exact swUpDown_delta_of_shadow_zero _ _ _ hshadow
    · rename_i h; exact absurd h hmode

/-- A frequency of 0.0 holds the square's phase at 0.0, at every accepted rate (41_square.md
R112). -/
theorem sqAdvance_phase_of_zero (bend : Bool) {sr : F64} (ha : acceptedRate sr = true) {q : Square}
    (hphase : q.phase = F64.zero) (hfreq : q.frequency = F64.zero) :
    (sqAdvance bend F64.one sr q).phase = F64.zero := by
  have hmul : F64.zero.mul F64.one = F64.zero := by decide +kernel
  have hwrap : wrapUnit (F64.zero.add F64.zero) = F64.zero := by decide +kernel
  obtain ⟨hfin, hpos⟩ := Bool.and_eq_true_iff.1 ha
  have hinc : sqIncrement bend F64.zero F64.one sr = F64.zero := by
    rw [sqIncrement, hmul, ite_self, F64.zero_div_of_pos hfin hpos]
  rw [sqAdvance, hphase, hfreq, hinc, hwrap]

/-- From launch, an accepted tick holds the square's phase unless the sweep is a triangle (R272). -/
theorem process_launch_phase {wtReset : Vector Nibble WT_LEN} {pReset : Params} {sr : F64}
    {t : State} (hmode : pReset.SweepType ≠ .triangle)
    (h : exec (.process sr) (State.launch wtReset pReset) = .next t) :
    t.sq.phase = F64.zero := by
  have hadd : F64.zero.add F64.zero = F64.zero := by decide +kernel
  obtain ⟨ha, o, u, rfl, _, _, _, _, _, hcase⟩ := process_cases h
  rw [finishTick_sq]
  rcases hcase with ⟨_, _, rfl⟩ | ⟨_, _, hvo, ⟨_, _, hsq, _⟩ | ⟨_, _, hsq, _⟩ | ⟨_, _, hsq, _⟩⟩
  · rfl
  · have hfreq : u.vo.freq = F64.zero := by
      rw [hvo]
      exact (congrArg _ (swProcess_delta_of_shadow_zero sr rfl hmode)).trans hadd
    rw [hsq]
    exact sqAdvance_phase_of_zero _ ha rfl hfreq
  · rw [hsq]; rfl
  · rw [hsq]; rfl

/-- Settles O54: the voice is Off, so a tick feeds silence to a DAC without history. -/
theorem afterLaunch : Obligations.AfterLaunch := by
  unfold Obligations.AfterLaunch
  rintro wtReset pReset _ rfl
  refine ⟨⟨_, rfl, ?_⟩, fun note => ⟨_, rfl, ?_⟩, fun sr ha => ?_⟩
  · rw [statusView_launch]
    rfl
  · rw [assignable_launch]
    rfl
  · obtain ⟨t, ht⟩ := process_completes (phasesInRange_launch wtReset pReset) ha
    obtain ⟨hoff, _, hdac⟩ := offVoiceIsSilent _ _ _ rfl rfl ht
    obtain ⟨hclean, _⟩ := dacCaching _ _ _ ht
    have hy1 : t.dac.y1 = F64.zero := by
      rw [hdac]
      exact dacProcess_silence _ _ (by simp [dacHistory, State.launch])
    have hanswer := process_answered ht
    rw [hy1] at hanswer
    exact ⟨t, ht, hanswer, hoff, hclean ⟨sr, rfl⟩, fun hmode => process_launch_phase hmode ht⟩

end Sys2Proof.Machine
end
